-- ==== Sys2Proof/Word.lean ====
section
/-! DEFINITION. The bit-level types of the spec: bytes, 32-bit words (R12, R94) and the 8-entry byte arrays IN and PL (R20, R21). -/

namespace Sys2Proof

/-- An 8-bit value: a channel value, a lane array entry, a plane byte. -/
abbrev Byte := BitVec 8

/-- A 32-bit value: a transmission word (R94), OSR (R23), the work registers X, Y, T (R22). -/
abbrev Word := BitVec 32

/-- Eight bytes indexed 0 to 7: the lane array `IN[0..7]` (R20) and the plane array `PL[0..7]` (R21). -/
structure Bytes8 where
  b0 : Byte
  b1 : Byte
  b2 : Byte
  b3 : Byte
  b4 : Byte
  b5 : Byte
  b6 : Byte
  b7 : Byte
deriving DecidableEq, Repr, Inhabited

end Sys2Proof
end

