-- ==== Sys2Proof/Syntax.lean ====
section
/-! DEFINITION. The operations of the block: one constructor of `Instr` per row of spec/opcode_table.json (R9, R105), with the types of their operands. -/

namespace Sys2Proof

/-- A colour channel of a pixel (R91). -/
inductive Channel where
  | red
  | green
  | blue
deriving DecidableEq, Repr

/-- A pixel: three unsigned 8-bit fields (R91). No packed layout exists (R61, D19). -/
structure Pixel where
  r : Byte
  g : Byte
  b : Byte
deriving DecidableEq, Repr

/-- A frame: one list of pixels per lane, LED index ascending, as the notation of R115 writes it. -/
abbrev Frame := List (List Pixel)

/-- The five states of the protocol state machine, the values of its program counter ST (R30, R155).
A five-constructor type, as R106 and R108 recommend: a reserved code is no value of it. -/
inductive PsmState where
  | header
  | pull
  | bitloop0
  | bitloop1
  | bitloop2
deriving DecidableEq, Repr

/-- Who performs an operation (R10). `otherTask` is no fourth agent of the block but another task of the host's CPU
that issues the next host call without waiting for the call in flight: the misuse of R193, R212 and R241 (log 10).
While a call is in flight none of its operations is performed (log 27). -/
inductive Agent where
  | host
  | feeder
  | psm
  | otherTask
deriving DecidableEq, Repr

/-- The 19 operations of R105. -/
inductive Instr where
  /-- TRANSPOSE8 (R120) -/
  | transpose8
  /-- PACK (R124) -/
  | pack
  /-- SWAP7 (R125) -/
  | swap7
  /-- SWAP14 (R126) -/
  | swap14
  /-- NIBX (R127) -/
  | nibx
  /-- UNPACK (R128) -/
  | unpack
  /-- LANEPACK (R140): LED index `i`, channel number `k` in transmission order -/
  | lanepack (i : Nat) (k : Fin 3)
  /-- EMITWORD (R142): position (`i`, `k`, `p`) -/
  | emitword (i : Nat) (k : Fin 3) (p : Fin 8)
  /-- BUILD (R144) -/
  | build
  /-- HEADER (R157) -/
  | header
  /-- PULL (R158) -/
  | pull
  /-- BITLOOP0 (R160) -/
  | bitloop0
  /-- BITLOOP1 (R162) -/
  | bitloop1
  /-- BITLOOP2 (R164) -/
  | bitloop2
  /-- CONSTRUCT (R190): lane count, LEDs per lane, opaque slot identifier -/
  | construct (c n slot : Nat)
  /-- ENABLE (R191) -/
  | enable
  /-- TRANSMIT (R192): the frame to send -/
  | transmit (frame : Frame)
  /-- PUSH (R195) -/
  | push
  /-- SETTLE (R198) -/
  | settle
deriving DecidableEq, Repr

/-- The agent whose turn performs an operation (R10, R105). -/
def Instr.agent : Instr → Agent
  | .transpose8 => .host
  | .pack => .host
  | .swap7 => .host
  | .swap14 => .host
  | .nibx => .host
  | .unpack => .host
  | .lanepack _ _ => .host
  | .emitword _ _ _ => .host
  | .build => .host
  | .header => .psm
  | .pull => .psm
  | .bitloop0 => .psm
  | .bitloop1 => .psm
  | .bitloop2 => .psm
  | .construct _ _ _ => .host
  | .enable => .host
  | .transmit _ => .host
  | .push => .feeder
  | .settle => .host

end Sys2Proof
end

