-- ==== Sys2Proof/Decode.lean ====
section
/-! DEFINITION. State codes (R106): decoding the 3-bit code of ST to the operation the PSM performs, total on any bytes, and the encoder. The other fourteen operations have no bit pattern (R90): no byte decodes to one. -/

namespace Sys2Proof

/-- Why bytes are no operation. -/
inductive DecodeError where
  /-- there is no byte to read -/
  | noBytes
  /-- codes 101, 110, 111 are reserved (R108): a fault, never a state with some behaviour -/
  | reservedStateCode (code : BitVec 3)
deriving DecidableEq, Repr

/-- The operation a state code selects (R106): HEADER 000, PULL 001, BITLOOP0 010, BITLOOP1 011, BITLOOP2 100. -/
def decodeCode (code : BitVec 3) : Except DecodeError Instr :=
  match code.toNat with
  | 0 => .ok .header
  | 1 => .ok .pull
  | 2 => .ok .bitloop0
  | 3 => .ok .bitloop1
  | 4 => .ok .bitloop2
  | _ => .error (.reservedStateCode code)

/-- The code stands in bits 2 to 0, `ST[2:0]`; the table's mask is 7, so bits 7 to 3 are no part of it (log 20). -/
def decodeByte (b : Byte) : Except DecodeError Instr := decodeCode (b.setWidth 3)

/-- Decoding, total on any bytes: one byte is one state code, the rest is handed back. -/
def decode (bytes : List Byte) : Except DecodeError (Instr × List Byte) :=
  match bytes with
  | [] => .error .noBytes
  | b :: rest =>
    match decodeByte b with
    | .ok i => .ok (i, rest)
    | .error e => .error e

/-- The bytes of an instruction of `nbits` bits numbered as the table numbers them: the lowest bits first. -/
def tableBytes (nbits w : Nat) : List Byte :=
  (List.range ((nbits + 7) / 8)).map fun k => BitVec.ofNat 8 (w / 256 ^ k)

/-- What the decoder reads from a table word. -/
def decodeTableWord (nbits w : Nat) : Option Instr :=
  match decode (tableBytes nbits w) with
  | .ok (i, _) => some i
  | .error _ => none

/-- The state whose operation `i` is, if `i` is an operation of the PSM. -/
def psmStateOf : Instr → Option PsmState
  | .header => some .header
  | .pull => some .pull
  | .bitloop0 => some .bitloop0
  | .bitloop1 => some .bitloop1
  | .bitloop2 => some .bitloop2
  | .transpose8 => none
  | .pack => none
  | .swap7 => none
  | .swap14 => none
  | .nibx => none
  | .unpack => none
  | .lanepack _ _ => none
  | .emitword _ _ _ => none
  | .build => none
  | .construct _ _ _ => none
  | .enable => none
  | .transmit _ => none
  | .push => none
  | .settle => none

/-- The code of a state (R106). -/
def stateCode : PsmState → BitVec 3
  | .header => 0b000
  | .pull => 0b001
  | .bitloop0 => 0b010
  | .bitloop1 => 0b011
  | .bitloop2 => 0b100

/-- The bytes of an operation: its state code (R106); none for an operation with no encoding (R90). -/
def encode (i : Instr) : Option (List Byte) :=
  (psmStateOf i).map fun st => [(stateCode st).setWidth 8]

end Sys2Proof
end

