-- ==== Sys2Proof/Config.lean ====
section
/-! DEFINITION. The implementation parameters of R8 (fixed constants, and OPEN ones as constants with no body) and the free values the spec leaves open. -/

namespace Sys2Proof

/-! ## Fixed by the spec -/

/-- `LANES`: width of the lane array and of a plane byte (R8). -/
abbrev Config.lanes : Nat := 8

/-- `PLANES`: bit-planes per channel (R8). -/
abbrev Config.planes : Nat := 8

/-- `CHANNELS`: colour channels per pixel (R8). -/
abbrev Config.channels : Nat := 3

/-- `WORD_BITS`: width of a transmission word (R8). -/
abbrev Config.wordBits : Nat := 32

/-- Words of the output buffer per LED: 3 channels of 8 planes (R62, R145). -/
abbrev Config.wordsPerLed : Nat := Config.channels * Config.planes

/-- `SHIFT_DIR` (R42): the one legal value, left. -/
inductive Config.ShiftDir where
  | left
deriving DecidableEq, Repr

/-- `FIFO_MODE` (R42): the one legal value, output-only. -/
inductive Config.FifoMode where
  | outputOnly
deriving DecidableEq, Repr

/-- The shift configuration of R42: what the configuration collaborator is given (R237). -/
structure Config.ShiftSettings where
  shiftDir : Config.ShiftDir
  pullThresh : Nat
  fifoMode : Config.FifoMode
deriving DecidableEq, Repr

/-- The only legal shift configuration (R42): left, threshold 8, output-only. It is not writable. -/
def Config.shiftSettings : Config.ShiftSettings :=
  { shiftDir := .left, pullThresh := 8, fifoMode := .outputOnly }

/-- `SETTLE_US` (R44): the settle delay in microseconds. -/
abbrev Config.settleUs : Nat := 55

/-- Nanoseconds in a microsecond: the unit of the model's time base (log 3, DESIGN CHOICE). -/
abbrev Config.nsPerUs : Nat := 1000

/-- The clock-divider ratio for a system clock in kHz (R43, R250): `floor(f / (800 * 52))`. -/
def Config.divOf (fSysKHz : Nat) : Nat := fSysKHz / (800 * 52)

/-! ## OPEN parameters: constants with no body -/

/-- What exceeds the smallest admitted system clock. -/
opaque Config.fSysKHzAbove : Nat

/-- `F_SYS_KHZ`: OPEN, at least 41600 (R8, R253, D25; log 17). -/
def Config.fSysKHz : Nat := 41600 + Config.fSysKHzAbove

/-- `DIV` (R8, R43): informative; no operation reads it. -/
def Config.div : Nat := Config.divOf Config.fSysKHz

/-- What exceeds the smallest queue depth, for the instance of a construction. -/
opaque Config.fifoDepthAbove : Nat → Nat

/-- `FIFO_DEPTH` of the instance a construction makes: OPEN, at least 1, whatever its SLOT, which no rule reads
(R8, D3; log 16). -/
def Config.fifoDepthOf (construction : Nat) : Nat := Config.fifoDepthAbove construction + 1

/-! ## `STB_ACTIVE`: an OPEN parameter with a default, an argument of the one function that uses it -/

/-- An electrical level of a pin. -/
inductive Config.Level where
  | low
  | high
deriving DecidableEq, Repr

/-- The level of a released strobe, given that of an asserted one. -/
def Config.Level.other : Config.Level → Config.Level
  | .low => .high
  | .high => .low

/-- `STB_ACTIVE`'s default (R8, D4): "asserted" is the high level. -/
def Config.stbActiveDefault : Config.Level := .high

/-! ## Free values -/

/-- The agent of the n-th turn that no schedule fixes: 0 host, 1 feeder, 2 PSM (R10, R51; log 1). -/
opaque Config.freeAgent : Nat → Fin 3

/-- The nanoseconds that pass before the n-th turn that no schedule fixes (R11, U13; log 3). -/
opaque Config.freeElapsed : Nat → Nat

/-- A 32-bit register that CONSTRUCT leaves unspecified: OSR, X, Y, T (R55, U10; log 6). -/
opaque Config.freeWord : Nat → Word

/-- An array register that CONSTRUCT leaves unspecified: IN, PL (R55, U10; log 6). -/
opaque Config.freeBytes : Nat → Bytes8

end Sys2Proof
end

