-- ==== Sys2Proof/Machine/State.lean ====
section
/-! DEFINITION. The machine's state (10_state.md, 20_memory.md), plain data; the reasons a step can stop; the state after reset (R55). -/

namespace Sys2Proof.Machine

/-- The output buffer as (word index, word) pairs, indices strictly rising (R62). An index that is not
listed holds no word. -/
abbrev Memory := List (Nat × Word)

/-- `PH`, the half-bit phase (R31). -/
inductive Phase where
  | low
  | high
deriving DecidableEq, Repr

/-- `TXS`, the transmitter state (R37). -/
inductive TxState where
  | idle
  | feed
  | settle
deriving DecidableEq, Repr

/-- The builder position (R32). -/
structure BuildPos where
  i : Nat
  k : Fin 3
  p : Fin 8
deriving DecidableEq, Repr

/-- One entry of the schedule (R10, R51): who moves, and the nanoseconds that pass before the move (D27; log 1, log 3). -/
structure Turn where
  agent : Agent
  dt : Nat
deriving DecidableEq, Repr

/-- Every piece of state the spec names (INVENTORY.md, "State"), and the model's own inputs and counters. -/
structure State where
  /-- `IN[0..7]` (R20) -/
  inp : Bytes8
  /-- `PL[0..7]` (R21) -/
  pl : Bytes8
  /-- `X` (R22) -/
  x : Word
  /-- `Y` (R22) -/
  y : Word
  /-- `T` (R22) -/
  t : Word
  /-- the builder position, present only during BUILD (R32) -/
  pos : Option BuildPos
  /-- the frame store (R60) -/
  frame : Frame
  /-- the output buffer (R62); it does not exist when no word is listed (R63) -/
  buf : Memory
  /-- whether an instance exists (R190, R211) -/
  built : Bool
  /-- `C` (R41) -/
  c : Nat
  /-- `N` (R41) -/
  n : Nat
  /-- `SLOT` (R8) -/
  slot : Nat
  /-- `FIFO_DEPTH` of the instance (R8) -/
  fifoDepth : Nat
  /-- `TXS` (R37) -/
  txs : TxState
  /-- `IDX` (R33) -/
  idx : Nat
  /-- the settle timer (R50): the time of drain while it runs -/
  settleTimer : Option Nat
  /-- what the last ConstructReject recorded (R211) -/
  rejected : Option Nat
  /-- the transmit queue, oldest word first (R64) -/
  queue : List Word
  /-- `EN` (R40) -/
  en : Bool
  /-- `ST` (R30) -/
  st : PsmState
  /-- `CNT` (R24) -/
  cnt : BitVec 3
  /-- `PH` (R31) -/
  ph : Phase
  /-- `OSR` (R23) -/
  osr : Word
  /-- the `DATA` pin (R25) -/
  dataPin : Bool
  /-- the `CLK` pin (R25) -/
  clk : Bool
  /-- the `STB` pin (R25), true = asserted -/
  stb : Bool
  /-- the model's own: the operations the host has still to call (R115; log 10) -/
  prog : List Instr
  /-- the model's own: the schedule still to be followed (log 1) -/
  turns : List Turn
  /-- the model's own: how many free turns were taken (log 1) -/
  tick : Nat
  /-- the model's own: the time base in nanoseconds (log 3) -/
  now : Nat
  /-- the model's own: how many free values CONSTRUCT has used (log 6) -/
  freeCount : Nat
deriving DecidableEq, Repr

/-- Why the machine stops with a fault. Each is safe: the model stops where the spec gives no access. -/
inductive Fault where
  /-- raised by LANEPACK and BUILD: a frame triple outside the ranges, which "is never formed by any rule" (R60). Safe. -/
  | frameAbsent
  /-- raised by EMITWORD: a word index outside 0 .. 24 N - 1 (R62). Safe. -/
  | bufferIndex
  /-- raised by PUSH: the output buffer holds no word at IDX; cannot happen after a BUILD (R78). Safe. -/
  | bufferAbsent
  /-- raised by the fetch of the PSM: a reserved state code (R108); no value of ST has one. Safe. -/
  | reservedStateCode
deriving DecidableEq, Repr

/-- Why the machine refuses to go on. Each is safe: the spec admits no such step. -/
inductive Refusal where
  /-- raised by exec's arm of an instruction with no meaning yet. Safe. -/
  | notModelled (mnemonic : String)
  /-- raised by TRANSMIT while TXS is not IDLE, and by the fetch of another task's TRANSMIT then: undefined, the model
  refuses (R212, U3). Safe. -/
  | overlapTransmit
  /-- raised by the fetch of another task: no other host operation may begin between a call and its return (R193; log 27). Safe. -/
  | callInFlight
  /-- raised by TRANSMIT while EN = 0 (R216, R239). Safe. -/
  | notEnabled
  /-- raised by TRANSMIT when the operand is no frame of C x N pixels (R192). Safe. -/
  | frameShape
  /-- raised by CONSTRUCT with C = 0 or N = 0 (R8, R216, D2). Safe. -/
  | degenerateShape
  /-- raised by CONSTRUCT while a transmission is in flight: it would abandon it (R203, R213, U2). Safe. -/
  | abortInFlight
  /-- raised by CONSTRUCT while the PSM is not quiescent: it would clear EN in mid-word (R214). Safe. -/
  | disableInFlight
  /-- raised by ENABLE before any CONSTRUCT: there is no PSM to enable (R235). Safe. -/
  | noInstance
  /-- raised by BUILD and EMITWORD while a transmission owns the buffer (R63, R86, R193, R201). Safe. -/
  | bufferInFlight
  /-- raised by the host's fetch: the next entry of the host's program is no operation of the host (R105). Safe. -/
  | notHostOperation
deriving DecidableEq, Repr

/-- The outcome of one operation. -/
abbrev Result := Host.Outcome State Fault Refusal

/-- All entries zero: the value the model names for an array register R55 leaves unspecified (log 5). -/
def zeroBytes : Bytes8 := ⟨0, 0, 0, 0, 0, 0, 0, 0⟩

/-- The machine right after reset (R55, R230), before any CONSTRUCT (log 4). `inp`, `pl`, `x`, `y`, `t`,
`osr` are unspecified by R55: zero is the model's DESIGN CHOICE (log 5). -/
def State.reset : State :=
  { inp := zeroBytes, pl := zeroBytes, x := 0, y := 0, t := 0
    pos := none, frame := [], buf := []
    built := false, c := 0, n := 0, slot := 0, fifoDepth := 1
    txs := .idle, idx := 0, settleTimer := none, rejected := none
    queue := []
    en := false, st := .header, cnt := 0, ph := .low, osr := 0
    dataPin := false, clk := false, stb := false
    prog := [], turns := [], tick := 0, now := 0, freeCount := 0 }

end Sys2Proof.Machine
end

