-- ==== Sys2Proof/Machine/Flags.lean ====
section
/-! DEFINITION. The conditions that are not stored but computed from the state: EMPTY, FULL, STALLED, BUSY, DRAINED (R35 to R37), settle expiry (R223), quiescence (R178). -/

namespace Sys2Proof.Machine

/-- `24·N`, the length of the output buffer (R62). -/
def State.bufLen (s : State) : Nat := Config.wordsPerLed * s.n

/-- `EMPTY` (R35). -/
def State.empty (s : State) : Bool := s.queue.isEmpty

/-- `FULL` (R35): the queue has no room for a word. Under the invariant it holds exactly `FIFO_DEPTH` words. -/
def State.full (s : State) : Bool := s.fifoDepth ≤ s.queue.length

/-- `STALLED` (R36). -/
def State.stalled (s : State) : Bool := s.en && s.st == .pull && s.empty

/-- `BUSY` (R37). -/
def State.busy (s : State) : Bool := s.txs != .idle

/-- `DRAINED` (R37, R197). -/
def State.drained (s : State) : Bool := s.idx == s.bufLen

/-- The settle timer has run for 55 microseconds since the time of drain it holds (R50, R223, D27). -/
def State.settleExpired (s : State) : Bool :=
  match s.settleTimer with
  | none => false
  | some drain => drain + Config.settleUs * Config.nsPerUs ≤ s.now

/-- Quiescent (R178): idle, nothing queued and the PSM waiting in PULL; or not enabled with nothing in flight. -/
def State.quiescent (s : State) : Bool :=
  !s.busy && s.empty && (s.st == .pull || !s.en)

/-- The last bit of a BITLOOP state: `CNT = 7` (R159). -/
def State.lastBit (s : State) : Bool := s.cnt == 7

/-- The PSM may perform the operation of state `st`: `EN = 1 and ST = st` (R157 to R159). -/
def State.psmAt (s : State) (st : PsmState) : Bool := s.en && s.st == st

/-- The PSM has an enabled step (R158, R159, R177). -/
def State.psmEnabled (s : State) : Bool := s.en && !s.stalled

/-- The feeder is active (R194). -/
def State.feeding (s : State) : Bool := s.txs == .feed && s.idx < s.bufLen

/-- PUSH is enabled (R195). -/
def State.feederEnabled (s : State) : Bool := s.feeding && !s.full

/-- SETTLE is enabled (R198, D27). -/
def State.settleEnabled (s : State) : Bool := s.txs == .settle && s.settleExpired

end Sys2Proof.Machine
end

