-- ==== Sys2Proof/WellFormed.lean ====
section
/-! DEFINITION. Which operations are well formed as syntax, whatever the state: the bounds on k and p are types already (`Fin 3`, `Fin 8`); a frame must be a grid (R60) of a shape CONSTRUCT admits (R8). -/

namespace Sys2Proof

/-- The number of LEDs of the frame's lane 0; of a grid, the number of LEDs of every lane. -/
def Frame.ledCount (f : Frame) : Nat :=
  match f with
  | [] => 0
  | lane :: _ => lane.length

/-- All lanes have the same number of LEDs: "fixed C×N grid of Pixel" (R60). -/
def Frame.rectangular (f : Frame) : Bool := f.all fun lane => lane.length == Frame.ledCount f

/-- At least one and at most 8 lanes (R8). -/
def Frame.laneCountLegal (f : Frame) : Bool := 1 ≤ f.length && f.length ≤ 8

/-- At least one LED in a lane (R8). -/
def Frame.ledCountLegal (f : Frame) : Bool := 1 ≤ Frame.ledCount f

/-- A frame some CONSTRUCT could have been made for. -/
def Frame.wellFormed (f : Frame) : Bool :=
  Frame.rectangular f && Frame.laneCountLegal f && Frame.ledCountLegal f

/-- An operation that is well formed as syntax. CONSTRUCT is well formed for every C and N: an illegal
one is a call the spec gives an answer to (R211, R216). -/
def Instr.wellFormed : Instr → Bool
  | .transpose8 => true
  | .pack => true
  | .swap7 => true
  | .swap14 => true
  | .nibx => true
  | .unpack => true
  | .lanepack _ _ => true
  | .emitword _ _ _ => true
  | .build => true
  | .header => true
  | .pull => true
  | .bitloop0 => true
  | .bitloop1 => true
  | .bitloop2 => true
  | .construct _ _ _ => true
  | .enable => true
  | .transmit f => Frame.wellFormed f
  | .push => true
  | .settle => true

end Sys2Proof
end

