-- ==== Sys2Proof/Machine/Operands.lean ====
section
/-! DEFINITION. How operands are assembled (R12, R91 to R102): array registers by index, bytes by bit, the channel map, the lane array, the buffer index, the transmission word. -/

namespace Sys2Proof.Machine

/-- Entry `j` of an array register (R12). -/
def entry (a : Bytes8) (j : Fin 8) : Byte :=
  match j with
  | 0 => a.b0
  | 1 => a.b1
  | 2 => a.b2
  | 3 => a.b3
  | 4 => a.b4
  | 5 => a.b5
  | 6 => a.b6
  | 7 => a.b7

/-- The array register whose entry `j` is `f j`. -/
def bytesOf (f : Fin 8 → Byte) : Bytes8 := ⟨f 0, f 1, f 2, f 3, f 4, f 5, f 6, f 7⟩

/-- The byte whose bit `b` is `f b` (R12). -/
def byteOfBits (f : Fin 8 → Bool) : Byte :=
  BitVec.ofBool (f 7) ++ BitVec.ofBool (f 6) ++ BitVec.ofBool (f 5) ++ BitVec.ofBool (f 4) ++
    BitVec.ofBool (f 3) ++ BitVec.ofBool (f 2) ++ BitVec.ofBool (f 1) ++ BitVec.ofBool (f 0)

/-- The channel map `ch(k)`: transmission order G, R, B (R71, R141). -/
def channelOf (k : Fin 3) : Channel :=
  match k with
  | 0 => .green
  | 1 => .red
  | 2 => .blue

/-- The channel value of a pixel (R91). -/
def pixelChannel (px : Pixel) (ch : Channel) : Byte :=
  match ch with
  | .red => px.r
  | .green => px.g
  | .blue => px.b

/-- `MemRead(FRAME, (c, i, ch))`: the channel value of lane `c` at LED `i` (R13, R60); none outside the grid. -/
def frameRead (f : Frame) (c i : Nat) (ch : Channel) : Option Byte :=
  match f[c]? with
  | none => none
  | some lane => (lane[i]?).map fun px => pixelChannel px ch

/-- The frame is a grid of exactly `c` lanes of `n` pixels (R60, R192). -/
def frameFits (f : Frame) (c n : Nat) : Bool :=
  f.length == c && f.all fun lane => lane.length == n

/-- The lane array of LED `i`, channel number `k` (R92, R100): entry `7 - c` is lane `c`'s value for `c < C`,
every other entry is 0. -/
def laneArray (f : Frame) (c i : Nat) (k : Fin 3) : Bytes8 :=
  bytesOf fun j =>
    if 7 - j.val < c then (frameRead f (7 - j.val) i (channelOf k)).getD 0 else 0

/-- The buffer index of position (`i`, `k`, `p`) (R62, R95): `24·i + 8·k + (7 - p)`. -/
def bufIndex (i : Nat) (k : Fin 3) (p : Fin 8) : Nat :=
  Config.wordsPerLed * i + Config.planes * k.val + (7 - p.val)

/-- The position of a buffer index (R95). -/
def indexPos (w : Nat) : BuildPos :=
  { i := w / 24
    k := ⟨w % 24 / 8, by omega⟩
    p := ⟨7 - w % 8, by omega⟩ }

/-- The transmission word of a plane byte (R94, R101): `zext_32(b) << 24`. -/
def wordOfPlane (b : Byte) : Word := b.setWidth 32 <<< 24

/-- The plane byte of a transmission word: bits 31 to 24 (R68, R94). -/
def planeOfWord (w : Word) : Byte := w.extractLsb' 24 8

/-- The bit that leaves the shift register: `OSR[31]` (R42, R162). -/
def osrTop (w : Word) : Bool := w.getLsbD 31

/-- The shift register after one real bit: `(OSR << 1)[31:0]` (R162). -/
def osrShift (w : Word) : Word := w <<< 1

end Sys2Proof.Machine
end

