-- ==== Sys2Proof/Machine/Ops.lean ====
section
/-! DEFINITION. The primitives of R13 over stores, registers and pins; the one exception the spec has, ConstructReject (R211); construction (R190); the drain event (R192, R217); the fetch of an agent's next operation (R10, R105) and the schedule (R51). -/

namespace Sys2Proof.Machine

/-! ## The output buffer -/

/-- `MemRead(BUF, w)` (R13): the word at index `a`, none where there is none. -/
def Memory.read (m : Memory) (a : Nat) : Option Word :=
  match m with
  | [] => none
  | (b, v) :: rest => if a = b then some v else Memory.read rest a

/-- `MemWrite(BUF, w, v)` (R13), keeping the indices strictly rising. -/
def Memory.write (m : Memory) (a : Nat) (v : Word) : Memory :=
  match m with
  | [] => [(a, v)]
  | (b, u) :: rest =>
    if a < b then (a, v) :: (b, u) :: rest
    else if a = b then (a, v) :: rest
    else (b, u) :: Memory.write rest a v

/-- Every listed index is above `lo` and the indices rise strictly. -/
def Memory.risesFrom (lo : Nat) (m : Memory) : Bool :=
  match m with
  | [] => true
  | (b, _) :: rest => lo ≤ b && Memory.risesFrom (b + 1) rest

/-- The canonical form: indices strictly rising. Nothing is listed for an index that holds no word. -/
def Memory.wf (m : Memory) : Bool := Memory.risesFrom 0 m

/-! ## The transmit queue -/

/-- `FifoPush(v)` (R13, R65): append at the tail. Its caller checks that the queue is not FULL. -/
def State.fifoPush (s : State) (v : Word) : State := { s with queue := s.queue ++ [v] }

/-! ## Pins -/

/-- `pins <- (d, k, s)` (R13): the three pins together. -/
def State.drivePins (s : State) (d k b : Bool) : State := { s with dataPin := d, clk := k, stb := b }

/-- The pin triple (DATA, CLK, STB) in the order of R97. -/
def State.pins (s : State) : Bool × Bool × Bool := (s.dataPin, s.clk, s.stb)

/-- The electrical level of the strobe pin, `STB_ACTIVE` being `active`, by default high (R8, R25, D4; log 18): no rule
reads it. -/
def State.strobeLevel (s : State) (active : Config.Level := Config.stbActiveDefault) : Config.Level :=
  if s.stb = true then active else active.other

/-! ## ConstructReject -/

/-- Taking the one exception of the block (R211): the offending C is recorded, nothing else is touched;
no state is saved and control goes nowhere (R219). -/
def State.takeConstructReject (s : State) (c : Nat) : State := { s with rejected := some c }

/-- There is no return from it (R220): a later legal CONSTRUCT starts afresh and "nothing carries over". -/
def State.clearReject (s : State) : State := { s with rejected := none }

/-! ## Construction -/

/-- Every piece of state at its reset value (R55, R190), for an instance of `c` lanes of `n` LEDs.
The registers R55 leaves unspecified take free values (U10; log 6), and so does FIFO_DEPTH (log 16); SLOT is stored and
not read (R8). The frame store is the caller's and the model's own fields are no state of the instance: both are
kept. -/
def State.construct (s : State) (c n slot : Nat) : State :=
  { s.clearReject with
    inp := Config.freeBytes s.freeCount
    pl := Config.freeBytes (s.freeCount + 1)
    x := Config.freeWord s.freeCount
    y := Config.freeWord (s.freeCount + 1)
    t := Config.freeWord (s.freeCount + 2)
    osr := Config.freeWord (s.freeCount + 3)
    freeCount := s.freeCount + 4
    pos := none
    buf := []
    built := true
    c := c
    n := n
    slot := slot
    fifoDepth := Config.fifoDepthOf s.freeCount
    txs := .idle
    idx := 0
    settleTimer := none
    queue := []
    en := false
    st := .header
    cnt := 0
    ph := .low
    dataPin := false
    clk := false
    stb := false }

/-! ## Events -/

/-- The drain event is due: the feeder has pushed the last word and the host still waits for it (R192 step 3). -/
def State.drainDue (s : State) : Bool := s.txs == .feed && s.drained

/-- The drain event (R192 steps 3 and 4, R197, R217): when the last word has been pushed the host resumes,
TXS becomes SETTLE and the settle timer starts (R223), in the same step as the push (log 2). -/
def State.deliverDrain (s : State) : State :=
  { s with
    txs := if s.drainDue = true then .settle else s.txs
    settleTimer := if s.drainDue = true then some s.now else s.settleTimer }

/-- What an outcome's next state is turned into. -/
def onNext (f : State → State) (o : Result) : Result :=
  match o with
  | .next s => .next (f s)
  | .fault r => .fault r
  | .refused r => .refused r

/-! ## Schedule -/

/-- The agent a free turn names (R10). -/
def agentOfIndex (a : Fin 3) : Agent :=
  match a with
  | 0 => .host
  | 1 => .feeder
  | 2 => .psm

/-- The turn that comes next: the schedule's first entry; where the schedule says nothing, a free value (log 1). -/
def State.nextTurn (s : State) : Turn :=
  match s.turns with
  | [] => { agent := agentOfIndex (Config.freeAgent s.tick), dt := Config.freeElapsed s.tick }
  | turn :: _ => turn

/-- The state in which the next turn's agent moves: the turn is used up and its time has passed. -/
def State.takeTurn (s : State) : State :=
  { s with
    turns := s.turns.tail
    tick := if s.turns.isEmpty = true then s.tick + 1 else s.tick
    now := s.now + s.nextTurn.dt }

/-! ## Fetch -/

/-- What an agent finds when it looks for its next operation. -/
inductive Fetched where
  /-- nothing to do: the agent holds (R14) -/
  | hold
  /-- the operation `i`, to be performed in the state `s` -/
  | run (i : Instr) (s : State)
  /-- the program counter holds a reserved code (R108) -/
  | reserved
  /-- the host's program names an operation of another agent -/
  | notHost
  /-- another task begins the call `i` while one is in flight (R193) -/
  | overlap (i : Instr)
deriving DecidableEq, Repr

/-- The byte at the PSM's program counter: the state code in ST[2:0] (R30, R106). -/
def State.fetchBytes (s : State) : List Byte := [(stateCode s.st).setWidth 8]

/-- The PSM's next operation is the one its program counter selects (R30). -/
def State.fetchPsm (s : State) : Fetched :=
  match decode s.fetchBytes with
  | .ok (i, _) => .run i s
  | .error _ => .reserved

/-- The next call of the host's program (R115), which is then off the program. -/
def State.fetchCall (s : State) : Fetched :=
  match s.prog with
  | [] => .hold
  | i :: rest => if i.agent = .host then .run i { s with prog := rest } else .notHost

/-- The host task (R84, R192, R193): it waits for the drain in FEED, performs SETTLE in SETTLE, and else
makes the next call of its program. -/
def State.fetchHost (s : State) : Fetched :=
  match s.txs with
  | .idle => s.fetchCall
  | .feed => .hold
  | .settle => .run .settle s

/-- What another task finds while a call is in flight: what it would call may not begin (R193; log 27). -/
def Fetched.duringCall (f : Fetched) : Fetched :=
  match f with
  | .hold => .hold
  | .run i _ => .overlap i
  | .reserved => .reserved
  | .notHost => .notHost
  | .overlap i => .overlap i

/-- Another task of the host's CPU does not wait: its call runs only when no call is in flight (R193, R212, R241). -/
def State.fetchOther (s : State) : Fetched :=
  match s.txs with
  | .idle => s.fetchCall
  | .feed => s.fetchCall.duringCall
  | .settle => s.fetchCall.duringCall

/-- Why a call that begins while another is in flight is refused: a TRANSMIT by R212, every other by R193. -/
def overlapRefusal (i : Instr) : Refusal :=
  match i with
  | .transmit _ => .overlapTransmit
  | .transpose8 => .callInFlight
  | .pack => .callInFlight
  | .swap7 => .callInFlight
  | .swap14 => .callInFlight
  | .nibx => .callInFlight
  | .unpack => .callInFlight
  | .lanepack _ _ => .callInFlight
  | .emitword _ _ _ => .callInFlight
  | .build => .callInFlight
  | .header => .callInFlight
  | .pull => .callInFlight
  | .bitloop0 => .callInFlight
  | .bitloop1 => .callInFlight
  | .bitloop2 => .callInFlight
  | .construct _ _ _ => .callInFlight
  | .enable => .callInFlight
  | .push => .callInFlight
  | .settle => .callInFlight

/-- The next operation of an agent. The feeder has one operation (R194). -/
def State.fetch (s : State) (a : Agent) : Fetched :=
  match a with
  | .host => s.fetchHost
  | .feeder => .run .push s
  | .psm => s.fetchPsm
  | .otherTask => s.fetchOther

/-! ## Placing an operation where the next step fetches it -/

/-- The state of the PSM that a table word selects. -/
def psmStateOfWord (nbits w : Nat) : Option PsmState :=
  match decodeTableWord nbits w with
  | none => none
  | some i => psmStateOf i

/-- The queue with a word in it, so that a PULL placed in the program counter is enabled (R158). -/
def queueForPull (st : PsmState) (q : List Word) : List Word :=
  match st, q with
  | .pull, [] => [0]
  | _, _ => q

/-- The state whose very next step is the PSM performing the operation of state `st`: ST holds `st`, EN is 1,
the next turn is the PSM's, and PULL has a word to fetch (log 24). -/
def State.placePsm (s : State) (st : PsmState) : State :=
  { s with
    st := st
    en := true
    queue := queueForPull st s.queue
    turns := { agent := .psm, dt := 0 } :: s.turns }

end Sys2Proof.Machine
end

