-- ==== Sys2Proof/Machine/Protocol.lean ====
section
/-! DEFINITION. The protocol state machine (42_protocol.md): HEADER, PULL, BITLOOP0, BITLOOP1, BITLOOP2. An operation that is not enabled holds: the state is unchanged (R14). -/

namespace Sys2Proof.Machine

/-- The low half of a bit (R159): DATA takes the state's value, CLK and STB go to 0, PH to H. -/
def State.bitLow (s : State) (d : Bool) : State := { s.drivePins d false false with ph := .high }

/-- The high half of a bit (R159): CLK goes to 1, PH to L; after the eighth bit ST goes to `next`. -/
def State.bitHigh (s : State) (next : PsmState) : State :=
  { s with
    clk := true
    ph := .low
    cnt := if s.lastBit = true then 0 else s.cnt + 1
    st := if s.lastBit = true then next else s.st }

/-- The common structure of the BITLOOP states (R159): the low half is `low`, the high half goes on to `next`. -/
def State.bitStep (s : State) (low : State) (next : PsmState) : State :=
  match s.ph with
  | .low => low
  | .high => s.bitHigh next

/-- HEADER (R157): `DATA <- 1; CLK <- 0; STB <- 1; ST <- PULL`. -/
def execHeader (s : State) : Result :=
  if s.psmAt .header = true then .next { s.drivePins true false true with st := .pull }
  else .next s

/-- PULL (R158): `OSR <- FifoPop(); CNT <- 0; PH <- L; ST <- BITLOOP0`; an empty queue holds it. -/
def execPull (s : State) : Result :=
  if s.psmAt .pull = true then
    match s.queue with
    | [] => .next s
    | w :: rest => .next { s with queue := rest, osr := w, cnt := 0, ph := .low, st := .bitloop0 }
  else .next s

/-- BITLOOP0 (R160): eight 1s. -/
def execBitloop0 (s : State) : Result :=
  if s.psmAt .bitloop0 = true then .next (s.bitStep (s.bitLow true) .bitloop1) else .next s

/-- BITLOOP1 (R162): the eight real bits, OSR shifting left in the low half. -/
def execBitloop1 (s : State) : Result :=
  if s.psmAt .bitloop1 = true then
    .next (s.bitStep { s.bitLow (osrTop s.osr) with osr := osrShift s.osr } .bitloop2)
  else .next s

/-- BITLOOP2 (R164): eight 0s. -/
def execBitloop2 (s : State) : Result :=
  if s.psmAt .bitloop2 = true then .next (s.bitStep (s.bitLow false) .header) else .next s

end Sys2Proof.Machine
end

