-- ==== Sys2Proof/Machine/Encoder.lean ====
section
/-! DEFINITION. The BitPlaneEncoder (40_transpose.md): TRANSPOSE8 by its definition R120, and the reference steps PACK, SWAP7, SWAP14, NIBX, UNPACK (R124 to R128). -/

namespace Sys2Proof.Machine

/-- The transpose of the 8x8 bit matrix (R120): `PL[p][j] = IN[j][p]`. -/
def transposeBytes (a : Bytes8) : Bytes8 :=
  bytesOf fun p => byteOfBits fun j => (entry a j).getLsbD p.val

/-- Four bytes as a word, the first most significant (R72, R124). -/
def packWord (a b c d : Byte) : Word :=
  (a.setWidth 32 <<< 24) ||| (b.setWidth 32 <<< 16) ||| (c.setWidth 32 <<< 8) ||| d.setWidth 32

/-- The byte of a word at byte position `a` (0 = least significant). -/
def wordByte (v : Word) (a : Nat) : Byte := v.extractLsb' (8 * a) 8

/-- The temporary of a masked swap (R116): `T = (v ^ (v >> s)) & m`. -/
def swapTemp (v : Word) (dist : Nat) (mask : Word) : Word := (v ^^^ (v >>> dist)) &&& mask

/-- The masked swap `DSWAP(v, s, m)` (R116): `v ^ T ^ (T << s)`. -/
def maskedSwap (v : Word) (dist : Nat) (mask : Word) : Word :=
  v ^^^ swapTemp v dist mask ^^^ (swapTemp v dist mask <<< dist)

/-- Distance 7's mask (R102). -/
def mask7 : Word := 0x00AA00AA

/-- Distance 14's mask (R102). -/
def mask14 : Word := 0x0000CCCC

/-- The high nibbles of a word (R102). -/
def maskHigh : Word := 0xF0F0F0F0

/-- The low nibbles of a word (R102). -/
def maskLow : Word := 0x0F0F0F0F

/-- A masked swap of X and then of Y (R125, R126): T is left from the second. -/
def State.swapXY (s : State) (dist : Nat) (mask : Word) : State :=
  { s with
    x := maskedSwap s.x dist mask
    y := maskedSwap s.y dist mask
    t := swapTemp s.y dist mask }

/-- What NIBX leaves in T and X (R127). -/
def nibbleTemp (x y : Word) : Word := (x &&& maskHigh) ||| ((y >>> 4) &&& maskLow)

/-- What NIBX leaves in Y (R127): it reads the old X. -/
def nibbleY (x y : Word) : Word := ((x <<< 4) &&& maskHigh) ||| (y &&& maskLow)

/-- TRANSPOSE8 as a step on the registers: it reads IN and writes PL (R27, R121). -/
def State.transpose (s : State) : State := { s with pl := transposeBytes s.inp }

/-- TRANSPOSE8 (R120). X, Y and T stay: the definition uses none (R22, R121; log 11). -/
def execTranspose8 (s : State) : Result := .next s.transpose

/-- PACK (R124). -/
def execPack (s : State) : Result :=
  .next { s with
    x := packWord (entry s.inp 7) (entry s.inp 6) (entry s.inp 5) (entry s.inp 4)
    y := packWord (entry s.inp 3) (entry s.inp 2) (entry s.inp 1) (entry s.inp 0) }

/-- SWAP7 (R125). -/
def execSwap7 (s : State) : Result := .next (s.swapXY 7 mask7)

/-- SWAP14 (R126). -/
def execSwap14 (s : State) : Result := .next (s.swapXY 14 mask14)

/-- NIBX (R127, GK1). -/
def execNibx (s : State) : Result :=
  .next { s with t := nibbleTemp s.x s.y, x := nibbleTemp s.x s.y, y := nibbleY s.x s.y }

/-- UNPACK (R128). -/
def execUnpack (s : State) : Result :=
  .next { s with
    pl :=
      { b7 := wordByte s.x 3, b6 := wordByte s.x 2, b5 := wordByte s.x 1, b4 := wordByte s.x 0
        b3 := wordByte s.y 3, b2 := wordByte s.y 2, b1 := wordByte s.y 1, b0 := wordByte s.y 0 } }

end Sys2Proof.Machine
end

