-- ==== Sys2Proof/Machine/Builder.lean ====
section
/-! DEFINITION. The FrameBuilder (41_framebuilder.md): LANEPACK, EMITWORD, BUILD. -/

namespace Sys2Proof.Machine

/-- LANEPACK's write (R140): all eight entries of IN. -/
def State.packLanes (s : State) (i : Nat) (k : Fin 3) : State :=
  { s with inp := laneArray s.frame s.c i k }

/-- EMITWORD's write (R142): the plane byte's word at the position's index. -/
def State.emitWord (s : State) (i : Nat) (k : Fin 3) (p : Fin 8) : State :=
  { s with buf := Memory.write s.buf (bufIndex i k p) (wordOfPlane (entry s.pl p)) }

/-- One EMITWORD of BUILD, the builder position set to it (R32). -/
def State.buildWord (s : State) (i : Nat) (k : Fin 3) (p : Fin 8) : State :=
  { s with pos := some { i := i, k := k, p := p } }.emitWord i k p

/-- The planes in emission order, 7 down to 0 (R71, R144). -/
def planeOrder : List (Fin 8) := [7, 6, 5, 4, 3, 2, 1, 0]

/-- The channel numbers in order: green, red, blue (R141, R144). -/
def channelOrder : List (Fin 3) := [0, 1, 2]

/-- The body of BUILD for one LED and channel (R144): LANEPACK, TRANSPOSE8, eight EMITWORDs. -/
def State.buildChannel (s : State) (i : Nat) (k : Fin 3) : State :=
  planeOrder.foldl (fun s p => s.buildWord i k p)
    ({ s with pos := some { i := i, k := k, p := 7 } }.packLanes i k).transpose

/-- BUILD's middle loop: the three channels of one LED (R144). -/
def State.buildLed (s : State) (i : Nat) : State :=
  channelOrder.foldl (fun s k => s.buildChannel i k) s

/-- BUILD (R144): a fresh buffer (R63), all LEDs ascending, the builder position gone at the end (R32). -/
def State.buildAll (s : State) : State :=
  { (List.range s.n).foldl (fun s i => s.buildLed i) { s with buf := [] } with pos := none }

/-- LANEPACK (R140). A LED index or a frame outside the grid is a triple no rule forms (R60; log 13). -/
def execLanepack (i : Nat) (k : Fin 3) (s : State) : Result :=
  if i < s.n ∧ frameFits s.frame s.c s.n = true then .next (s.packLanes i k)
  else .fault .frameAbsent

/-- EMITWORD (R142). The buffer of a transmission in flight is that call's alone (R86, R193, R201); the
index must be one of the buffer's (R62; log 14). -/
def execEmitword (i : Nat) (k : Fin 3) (p : Fin 8) (s : State) : Result :=
  if s.txs ≠ .idle then .refused .bufferInFlight
  else if i < s.n then .next (s.emitWord i k p)
  else .fault .bufferIndex

/-- BUILD (R144). As EMITWORD in flight; it reads the whole frame, which must be a grid of C x N pixels. -/
def execBuild (s : State) : Result :=
  if s.txs ≠ .idle then .refused .bufferInFlight
  else if frameFits s.frame s.c s.n = true then .next s.buildAll
  else .fault .frameAbsent

end Sys2Proof.Machine
end

