-- ==== Sys2Proof/Machine/Transmitter.lean ====
section
/-! DEFINITION. The Transmitter (43_transmitter.md): CONSTRUCT, ENABLE, TRANSMIT, PUSH, SETTLE. -/

namespace Sys2Proof.Machine

/-- CONSTRUCT (R190). The machine holds one instance and never compares slots: a CONSTRUCT of whatever slot is about that
instance (R201, R225, R8; DESIGN CHOICE, log 26). More than 8 lanes raises ConstructReject (R211); C = 0 or N = 0 is refused (D2). It
may not abandon a transmission (R203, R213) nor stop the PSM in mid-word (R214; log 8). -/
def execConstruct (c n slot : Nat) (s : State) : Result :=
  if Config.lanes < c then .next (s.takeConstructReject c)
  else if c = 0 ∨ n = 0 then .refused .degenerateShape
  else if s.busy = true then .refused .abortInFlight
  else if s.quiescent = true then .next (s.construct c n slot)
  else .refused .disableInFlight

/-- ENABLE (R191): `EN <- 1`. CONSTRUCT comes first (R235; log 9). -/
def execEnable (s : State) : Result :=
  if s.built = true then .next { s with en := true } else .refused .noInstance

/-- TRANSMIT, steps (1) and (2) of R192: BUILD from the operand, then `IDX <- 0; TXS <- FEED`. Steps (3) and
(4) are the drain event, step (5) is SETTLE. -/
def execTransmit (frame : Frame) (s : State) : Result :=
  if s.busy = true then .refused .overlapTransmit
  else if s.en = false then .refused .notEnabled
  else if frameFits frame s.c s.n = true then
    .next { ({ s with frame := frame } : State).buildAll with idx := 0, txs := .feed }
  else .refused .frameShape

/-- PUSH (R195): `FifoPush(MemRead(BUF, IDX)); IDX <- IDX + 1`; it holds while it is not enabled. -/
def execPush (s : State) : Result :=
  if s.feederEnabled = true then
    match Memory.read s.buf s.idx with
    | some v => .next { s.fifoPush v with idx := s.idx + 1 }
    | none => .fault .bufferAbsent
  else .next s

/-- SETTLE (R198, R199): when the settle timer has expired, `TXS <- IDLE` and the buffer is discarded; IDX
keeps its value (U11; log 15). -/
def execSettle (s : State) : Result :=
  if s.settleEnabled = true then .next { s with txs := .idle, settleTimer := none, buf := [] }
  else .next s

end Sys2Proof.Machine
end

