-- ==== Sys2Proof/Machine/Dispatch.lean ====
section
/-! DEFINITION. The meaning of every operation of the table (R105): one arm per constructor of Instr. -/

namespace Sys2Proof.Machine

def exec (i : Instr) (s : State) : Host.Outcome State Fault Refusal :=
  match i with
  -- BitPlaneEncoder (40_transpose.md)
  | .transpose8 => Sys2Proof.Machine.execTranspose8 s
  | .pack => Sys2Proof.Machine.execPack s
  | .swap7 => Sys2Proof.Machine.execSwap7 s
  | .swap14 => Sys2Proof.Machine.execSwap14 s
  | .nibx => Sys2Proof.Machine.execNibx s
  | .unpack => Sys2Proof.Machine.execUnpack s
  -- FrameBuilder (41_framebuilder.md)
  | .lanepack led k => Sys2Proof.Machine.execLanepack led k s
  | .emitword led k p => Sys2Proof.Machine.execEmitword led k p s
  | .build => Sys2Proof.Machine.execBuild s
  -- ProtocolProgram (42_protocol.md)
  | .header => Sys2Proof.Machine.execHeader s
  | .pull => Sys2Proof.Machine.execPull s
  | .bitloop0 => Sys2Proof.Machine.execBitloop0 s
  | .bitloop1 => Sys2Proof.Machine.execBitloop1 s
  | .bitloop2 => Sys2Proof.Machine.execBitloop2 s
  -- Transmitter (43_transmitter.md)
  | .construct c n slot => Sys2Proof.Machine.execConstruct c n slot s
  | .enable => Sys2Proof.Machine.execEnable s
  | .transmit frame => Sys2Proof.Machine.execTransmit frame s
  | .push => Sys2Proof.Machine.execPush s
  | .settle => Sys2Proof.Machine.execSettle s

end Sys2Proof.Machine
end

