-- ==== Sys2Proof/Machine/Perform.lean ====
section
/-! DEFINITION. Performing what an agent fetched: an operation, or a hold (R14); the drain event comes at the end (R217). -/

namespace Sys2Proof.Machine

/-- Performing what an agent fetched in the state `s`; the drain event is delivered at the end of every step
(R217; log 2). -/
def perform (f : Fetched) (s : State) : Result :=
  match f with
  | .hold => .next s.deliverDrain
  | .run i s' => onNext State.deliverDrain (exec i s')
  | .reserved => .fault .reservedStateCode
  | .notHost => .refused .notHostOperation
  | .overlap i => .refused (overlapRefusal i)

end Sys2Proof.Machine
end

