-- ==== Sys2Proof/Machine/Step.lean ====
section
/-! DEFINITION. One step of the machine: the next turn's agent performs its next operation, or holds (R10, R14); and the placing of a state code where the next step fetches it. -/

namespace Sys2Proof.Machine

/-- One step: the next turn is taken, its time passes, and its agent performs its next operation. -/
def step (s : State) : Host.Outcome State Fault Refusal :=
  perform (s.takeTurn.fetch s.nextTurn.agent) s.takeTurn

/-- The state in which the next step runs the operation of a table word: its state code stands in the program
counter of the PSM, which is enabled and has the next turn (log 24). A word that decodes to no operation of
the PSM is nowhere fetched: the state is unchanged. -/
def State.withFetchWord (s : State) (nbits w : Nat) : State :=
  match psmStateOfWord nbits w with
  | none => s
  | some st => s.placePsm st

end Sys2Proof.Machine
end

