-- ==== Sys2Proof/Safety.lean ====
section
/-! DEFINITION. The terms claims use: the two observations of the pins (R15), runs, what the PSM still owes the wire, the closed form of the buffer (R143), and the invariant every step keeps. -/

namespace Sys2Proof.Machine

/-! ## Observations (R15) -/

/-- An event of the wire trace (R15): the strobe rises, or the clock rises with DATA at a value. -/
inductive WireEvent where
  | strobe
  | bit (b : Bool)
deriving DecidableEq, Repr

/-- The events read off two pin triples (DATA, CLK, STB) in a row (R15). -/
def tripleEvents (before after : Bool × Bool × Bool) : List WireEvent :=
  (if before.2.2 = false ∧ after.2.2 = true then [.strobe] else []) ++
    (if before.2.1 = false ∧ after.2.1 = true then [.bit after.1] else [])

/-- The wire events between two states (R15). -/
def wireEvents (before after : State) : List WireEvent := tripleEvents before.pins after.pins

/-- The wire trace read off a pin trace that starts from the triple `first` (R15). -/
def readOff (first : Bool × Bool × Bool) (trace : List (Bool × Bool × Bool)) : List WireEvent :=
  match trace with
  | [] => []
  | p :: rest => tripleEvents first p ++ readOff p rest

/-! ## Runs -/

/-- The next state of an outcome, if there is one. -/
def nextState? (o : Result) : Option State :=
  match o with
  | .next s => some s
  | .fault _ => none
  | .refused _ => none

/-- `k` steps: the state they end in and the wire trace they leave; none if a step stops. -/
def runTrace (k : Nat) (s : State) : Option (State × List WireEvent) :=
  match k with
  | 0 => some (s, [])
  | k + 1 =>
    match step s with
    | .next s' => (runTrace k s').map fun r => (r.1, wireEvents s s' ++ r.2)
    | .fault _ => none
    | .refused _ => none

/-- The next step is a step of the PSM: its turn comes, and it has an enabled operation; a hold is no step (R14). -/
def State.psmStepsNext (s : State) : Bool := s.nextTurn.agent == .psm && s.psmEnabled

/-- The pin triples after each step of the PSM among `k` steps (R15, D7). -/
def pinTrace (k : Nat) (s : State) : List (Bool × Bool × Bool) :=
  match k with
  | 0 => []
  | k + 1 =>
    match step s with
    | .next s' => if s.psmStepsNext = true then s'.pins :: pinTrace k s' else pinTrace k s'
    | .fault _ => []
    | .refused _ => []

/-- Operations one after the other; it stops at the first that does not give a next state. -/
def execAll (is : List Instr) (s : State) : Result :=
  match is with
  | [] => .next s
  | i :: rest =>
    match exec i s with
    | .next s' => execAll rest s'
    | .fault r => .fault r
    | .refused r => .refused r

/-- The pin triples of one pass that pops `w`, step by step (R174). -/
def passPins (w : Word) : List (Bool × Bool × Bool) :=
  [(true, false, true), (true, false, true)] ++
    (List.replicate 8 [(true, false, false), (true, true, false)]).flatten ++
    (List.range 8).flatMap (fun j =>
      [(w.getLsbD (31 - j), false, false), (w.getLsbD (31 - j), true, false)]) ++
    (List.replicate 8 [(false, false, false), (false, true, false)]).flatten

/-- `k` turns of the PSM in a row. -/
def psmTurns (k : Nat) : List Turn := List.replicate k { agent := .psm, dt := 0 }

/-! ## The wire frame of a word (R98, R172) -/

/-- The first `k` real bits of a word, bit 31 first (R70, R162). -/
def realBits (w : Word) (k : Nat) : List WireEvent :=
  (List.range k).map fun j => .bit (w.getLsbD (31 - j))

/-- `k` clock pulses with DATA at `b`. -/
def pulses (k : Nat) (b : Bool) : List WireEvent := List.replicate k (.bit b)

/-- The 24 bits of a word's frame: eight 1s, its eight real bits, eight 0s (R98). -/
def wordPulses (w : Word) : List WireEvent := pulses 8 true ++ realBits w 8 ++ pulses 8 false

/-- The 25 events of one pass (R172). -/
def wordFrame (w : Word) : List WireEvent := .strobe :: wordPulses w

/-! ## What the PSM still owes the wire -/

/-- The events left of the pass in progress, with the strobe that follows it. -/
def passRest (s : State) : List WireEvent :=
  match s.st with
  | .header => [.strobe]
  | .pull => []
  | .bitloop0 =>
    pulses (8 - s.cnt.toNat) true ++ realBits s.osr 8 ++ pulses 8 false ++ [.strobe]
  | .bitloop1 =>
    (match s.ph with
      | .low => realBits s.osr (8 - s.cnt.toNat)
      | .high => .bit s.dataPin :: realBits s.osr (7 - s.cnt.toNat)) ++ pulses 8 false ++ [.strobe]
  | .bitloop2 => pulses (8 - s.cnt.toNat) false ++ [.strobe]

/-- The words accepted and not yet fetched by the PSM: those queued, then those still in the buffer (R79 to R81). -/
def owedWords (s : State) : List Word :=
  s.queue ++
    (if s.txs = .feed then
      (List.range (s.bufLen - s.idx)).filterMap fun m => Memory.read s.buf (s.idx + m)
    else [])

/-- Every wire event the machine still owes: the rest of the pass, then each word's pulses and the next strobe. -/
def wireDue (s : State) : List WireEvent :=
  passRest s ++ (owedWords s).flatMap fun w => wordPulses w ++ [.strobe]

/-! ## The closed form of the buffer (R143) -/

/-- Bit `p` of lane `c`'s channel `ch(k)` at LED `i`. -/
def channelBit (f : Frame) (c i : Nat) (k : Fin 3) (p : Fin 8) : Bool :=
  match frameRead f c i (channelOf k) with
  | none => false
  | some v => v.getLsbD p.val

/-- The word at buffer index `w` of a frame of `c` lanes (R143): bit `31 - lane` is the lane's bit, every other bit is 0. -/
def frameWord (f : Frame) (c w : Nat) : Word :=
  let pos := indexPos w
  wordOfPlane (byteOfBits fun b => 7 - b.val < c && channelBit f (7 - b.val) pos.i pos.k pos.p)

/-! ## Views and sets of bits -/

/-- The part of the state the PSM reads or writes (R26). -/
def psmView (s : State) :
    Bool × PsmState × BitVec 3 × Phase × Word × (Bool × Bool × Bool) × List Word :=
  (s.en, s.st, s.cnt, s.ph, s.osr, s.pins, s.queue)

/-- Bits 23 to 0 of a word are 0 (R94). -/
def lowBitsZero (w : Word) : Prop := w &&& 0x00FFFFFF = 0

/-- From `v` to `v'` each bit `q` of `qs` has exchanged its value with bit `q + dist`, and no other bit has changed (R125, R126). -/
def exchangesBits (qs : List Nat) (dist : Nat) (v v' : Word) : Prop :=
  (∀ q ∈ qs, v'.getLsbD q = v.getLsbD (q + dist) ∧ v'.getLsbD (q + dist) = v.getLsbD q) ∧
    ∀ r, r ∉ qs → r ∉ qs.map (· + dist) → v'.getLsbD r = v.getLsbD r

/-- The number of set bits of an array register. -/
def setBits (a : Bytes8) : Nat :=
  ((List.finRange 8).map fun j =>
    ((List.finRange 8).filter fun b => (entry a j).getLsbD b.val).length).sum

/-- Entrywise exclusive-or of array registers (R123). -/
def xorBytes (a b : Bytes8) : Bytes8 := bytesOf fun j => entry a j ^^^ entry b j

/-! ## The invariant -/

/-- The PSM is in one of the three BITLOOP states. -/
def State.inBitloop (s : State) : Bool :=
  s.st == .bitloop0 || s.st == .bitloop1 || s.st == .bitloop2

/-- The stores, the transmission in flight and the instance. -/
structure StoreInvariant (s : State) : Prop where
  /-- the buffer is in canonical form -/
  bufCanonical : Memory.wf s.buf = true
  /-- every word of the buffer has its low 24 bits 0 (R94, R145) -/
  bufLowBits : ∀ e ∈ s.buf, lowBitsZero e.2
  /-- every queued word has its low 24 bits 0 (R246) -/
  queueLowBits : ∀ w ∈ s.queue, lowBitsZero w
  /-- the queue holds at most FIFO_DEPTH words (R64) -/
  queueFits : s.queue.length ≤ s.fifoDepth
  /-- FIFO_DEPTH is at least 1 (R8) -/
  depthPositive : 1 ≤ s.fifoDepth
  /-- an instance has 1 to 8 lanes and at least one LED (R8, R41) -/
  shapeLegal : s.built = true → 1 ≤ s.c ∧ s.c ≤ 8 ∧ 1 ≤ s.n
  /-- only an instance is enabled (R235) -/
  enabledBuilt : s.en = true → s.built = true
  /-- a transmission runs only while the PSM is enabled (R192, R239) -/
  busyEnabled : s.txs ≠ .idle → s.en = true
  /-- while the feeder works, IDX is below 24 N and every index of the buffer holds a word (R33, R78) -/
  feedComplete : s.txs = .feed →
    s.idx < s.bufLen ∧ ∀ w < s.bufLen, (Memory.read s.buf w).isSome = true
  /-- the settle timer runs exactly in SETTLE (R50, R223) -/
  timerRuns : s.txs = .settle ↔ s.settleTimer.isSome = true
  /-- the time of drain is past -/
  timerPast : ∀ d, s.settleTimer = some d → d ≤ s.now
  /-- the builder position exists only during BUILD (R32) -/
  positionGone : s.pos = none

/-- The registers of the PSM and the pins it drives. -/
structure PinInvariant (s : State) : Prop where
  /-- outside the BITLOOP states CNT is 0 and PH is L -/
  counterIdle : s.inBitloop = false → s.cnt = 0 ∧ s.ph = .low
  /-- the strobe is released before HEADER (R169) -/
  headerStrobe : s.st = .header → s.stb = false
  /-- in PULL the pins are (1, 0, 1) (R158, R176) -/
  pullPins : s.st = .pull → s.pins = (true, false, true)
  /-- between the halves of a bit the clock is low and the strobe released (R159) -/
  highPins : s.ph = .high → s.clk = false ∧ s.stb = false
  /-- before the first bit the pins are as in PULL (R158) -/
  firstPins : s.st = .bitloop0 → s.ph = .low → s.cnt = 0 → s.pins = (true, false, true)
  /-- before every other bit the clock is high and the strobe released (R159, R169) -/
  lowPins : s.inBitloop = true → s.ph = .low → ¬(s.st = .bitloop0 ∧ s.cnt = 0) →
    s.clk = true ∧ s.stb = false
  /-- a bit of BITLOOP0 is 1 (R160) -/
  onesBit : s.st = .bitloop0 → s.ph = .high → s.dataPin = true
  /-- a bit of BITLOOP2 is 0 (R164) -/
  zerosBit : s.st = .bitloop2 → s.ph = .high → s.dataPin = false

/-- What every step keeps, from every state that has it. -/
structure Invariant (s : State) : Prop where
  stores : StoreInvariant s
  pins : PinInvariant s

end Sys2Proof.Machine
end

