-- ==== Sys2Proof/Certificates/Slice0/Obligations.lean ====
section
/-! DEFINITION. The statements for the provers. Each docstring names the rule of spec/ it formalises, or says that it is the model's choice and names the log entry. -/

open Sys2Proof Sys2Proof.Machine

/-! ## BitPlaneEncoder -/

/-- R120: TRANSPOSE8 writes bit `p` of `IN[j]` to bit `j` of `PL[p]`, for all 64 bits; it is total. It writes nothing
else but what R27 and R121 let it write, the work registers. -/
def Obligations.TransposeMovesEveryBit : Prop :=
  ∀ s : State, ∃ t, exec .transpose8 s = .next t ∧
    (∀ p j : Fin 8, (entry t.pl p).getLsbD j.val = (entry s.inp j).getLsbD p.val) ∧
    t = { s with pl := t.pl, x := t.x, y := t.y, t := t.t }

/-- R124 (and R72): PACK puts input index 7 in the most significant byte of X and index 0 in the least
significant byte of Y, and writes nothing else. -/
def Obligations.PackJoinsLaneArray : Prop :=
  ∀ s : State, exec .pack s = .next { s with
    x := entry s.inp 7 ++ entry s.inp 6 ++ entry s.inp 5 ++ entry s.inp 4
    y := entry s.inp 3 ++ entry s.inp 2 ++ entry s.inp 1 ++ entry s.inp 0 }

/-- R125: SWAP7 computes the source's formula in X and Y, which exchanges bits `q` and `q + 7` for the set bits
`q` of the mask; T is left from Y's swap; nothing else is written. -/
def Obligations.SwapSevenExchangesBits : Prop :=
  ∀ s : State, ∃ t, exec .swap7 s = .next t ∧
    (∀ tx : Word, tx = (s.x ^^^ (s.x >>> 7)) &&& 0x00AA00AA → t.x = s.x ^^^ tx ^^^ (tx <<< 7)) ∧
    (∀ ty : Word, ty = (s.y ^^^ (s.y >>> 7)) &&& 0x00AA00AA →
      t.y = s.y ^^^ ty ^^^ (ty <<< 7) ∧ t.t = ty) ∧
    exchangesBits [1, 3, 5, 7, 17, 19, 21, 23] 7 s.x t.x ∧
    exchangesBits [1, 3, 5, 7, 17, 19, 21, 23] 7 s.y t.y ∧
    t = { s with x := t.x, y := t.y, t := t.t }

/-- R126: SWAP14, the same with distance 14 and mask 0000CCCC. -/
def Obligations.SwapFourteenExchangesBits : Prop :=
  ∀ s : State, ∃ t, exec .swap14 s = .next t ∧
    (∀ tx : Word, tx = (s.x ^^^ (s.x >>> 14)) &&& 0x0000CCCC → t.x = s.x ^^^ tx ^^^ (tx <<< 14)) ∧
    (∀ ty : Word, ty = (s.y ^^^ (s.y >>> 14)) &&& 0x0000CCCC →
      t.y = s.y ^^^ ty ^^^ (ty <<< 14) ∧ t.t = ty) ∧
    exchangesBits [2, 3, 6, 7, 10, 11, 14, 15] 14 s.x t.x ∧
    exchangesBits [2, 3, 6, 7, 10, 11, 14, 15] 14 s.y t.y ∧
    t = { s with x := t.x, y := t.y, t := t.t }

/-- R127: NIBX computes the stated formulas, so that at each byte position the low nibble of X and the high
nibble of Y change places and the other nibbles stay; T holds the new X; nothing else is written. -/
def Obligations.NibxExchangesNibbles : Prop :=
  ∀ s : State, ∃ t, exec .nibx s = .next t ∧
    t.x = (s.x &&& 0xF0F0F0F0) ||| ((s.y >>> 4) &&& 0x0F0F0F0F) ∧
    t.y = ((s.x <<< 4) &&& 0xF0F0F0F0) ||| (s.y &&& 0x0F0F0F0F) ∧
    t.t = t.x ∧
    (∀ a < 4, ∀ b < 4,
      t.x.getLsbD (8 * a + b) = s.y.getLsbD (8 * a + 4 + b) ∧
      t.y.getLsbD (8 * a + 4 + b) = s.x.getLsbD (8 * a + b) ∧
      t.x.getLsbD (8 * a + 4 + b) = s.x.getLsbD (8 * a + 4 + b) ∧
      t.y.getLsbD (8 * a + b) = s.y.getLsbD (8 * a + b)) ∧
    t = { s with x := t.x, y := t.y, t := t.t }

/-- R128: UNPACK reads PL back from X and Y in the byte order of PACK, and writes nothing else. -/
def Obligations.UnpackSplitsWorkWords : Prop :=
  ∀ s : State, ∃ t, exec .unpack s = .next t ∧
    entry t.pl 7 = s.x.extractLsb 31 24 ∧ entry t.pl 6 = s.x.extractLsb 23 16 ∧
    entry t.pl 5 = s.x.extractLsb 15 8 ∧ entry t.pl 4 = s.x.extractLsb 7 0 ∧
    entry t.pl 3 = s.y.extractLsb 31 24 ∧ entry t.pl 2 = s.y.extractLsb 23 16 ∧
    entry t.pl 1 = s.y.extractLsb 15 8 ∧ entry t.pl 0 = s.y.extractLsb 7 0 ∧
    t = { s with pl := t.pl }

/-- R130: the five reference steps leave in PL what TRANSPOSE8 leaves there, for every input. -/
def Obligations.ReferenceStepsEqualTranspose : Prop :=
  ∀ s u : State, exec .transpose8 s = .next u →
    ∃ t, execAll [.pack, .swap7, .swap14, .nibx, .unpack] s = .next t ∧ t.pl = u.pl

/-- R123 (a): transposing the output again gives the input back. -/
def Obligations.TransposeTwiceIsIdentity : Prop :=
  ∀ s t u : State, exec .transpose8 s = .next t →
    exec .transpose8 { t with inp := t.pl } = .next u → u.pl = s.inp

/-- R123 (c): TRANSPOSE8 is linear over exclusive-or. -/
def Obligations.TransposeIsXorLinear : Prop :=
  ∀ (s ta tb tx : State) (a b : Bytes8),
    exec .transpose8 { s with inp := a } = .next ta →
    exec .transpose8 { s with inp := b } = .next tb →
    exec .transpose8 { s with inp := xorBytes a b } = .next tx → tx.pl = xorBytes ta.pl tb.pl

/-- R123 (d): TRANSPOSE8 preserves the number of set bits. -/
def Obligations.TransposeKeepsSetBitCount : Prop :=
  ∀ s t : State, exec .transpose8 s = .next t → setBits t.pl = setBits s.inp

/-- R123 (e): the fixed points are exactly the symmetric inputs. -/
def Obligations.TransposeFixesSymmetricInputs : Prop :=
  ∀ s t : State, exec .transpose8 s = .next t →
    (t.pl = s.inp ↔
      ∀ j p : Fin 8, (entry s.inp j).getLsbD p.val = (entry s.inp p).getLsbD j.val)

/-! ## FrameBuilder -/

/-- R140, R141: LANEPACK writes lane `c`'s value of channel `ch(k)` at LED `i` to `IN[7 - c]` and 0 to the
entries of no lane; nothing else is written. -/
def Obligations.LanepackFillsLaneArray : Prop :=
  channelOf 0 = .green ∧ channelOf 1 = .red ∧ channelOf 2 = .blue ∧
  ∀ (i : Nat) (k : Fin 3) (s : State), i < s.n → s.c ≤ 8 → frameFits s.frame s.c s.n = true →
    ∃ t, exec (.lanepack i k) s = .next t ∧
      (∀ j : Fin 8, 7 - j.val < s.c →
        frameRead s.frame (7 - j.val) i (channelOf k) = some (entry t.inp j)) ∧
      (∀ j : Fin 8, s.c ≤ 7 - j.val → entry t.inp j = 0) ∧
      t = { s with inp := t.inp }

/-- The model's choice (log 13), from R60's "never formed by any rule": a LANEPACK or a BUILD that would read
outside the frame store faults. -/
def Obligations.FrameReadOutsideGridFaults : Prop :=
  (∀ (i : Nat) (k : Fin 3) (s : State), s.n ≤ i ∨ frameFits s.frame s.c s.n = false →
    exec (.lanepack i k) s = .fault .frameAbsent) ∧
  (∀ s : State, s.txs = .idle → frameFits s.frame s.c s.n = false →
    exec .build s = .fault .frameAbsent)

/-- R142: EMITWORD stores `zext_32(PL[p]) << 24` at index `24·i + 8·k + (7 - p)`; every other index reads as
before and nothing else is written. -/
def Obligations.EmitwordStoresPlaneWord : Prop :=
  ∀ (i : Nat) (k : Fin 3) (p : Fin 8) (s : State), s.txs = .idle → i < s.n →
    bufIndex i k p = 24 * i + 8 * k.val + (7 - p.val) ∧
    ∃ t, exec (.emitword i k p) s = .next t ∧
      Memory.read t.buf (bufIndex i k p) = some ((entry s.pl p).setWidth 32 <<< 24) ∧
      (∀ a, a ≠ bufIndex i k p → Memory.read t.buf a = Memory.read s.buf a) ∧
      t = { s with buf := t.buf }

/-- The model's choice (log 14), from R62, R86, R193: EMITWORD outside the index range faults; EMITWORD and
BUILD are refused while a transmission owns the buffer. -/
def Obligations.BufferWritesStopOutsideBuild : Prop :=
  (∀ (i : Nat) (k : Fin 3) (p : Fin 8) (s : State), s.txs = .idle → s.n ≤ i →
    exec (.emitword i k p) s = .fault .bufferIndex) ∧
  (∀ (i : Nat) (k : Fin 3) (p : Fin 8) (s : State), s.txs ≠ .idle →
    exec (.emitword i k p) s = .refused .bufferInFlight ∧
    exec .build s = .refused .bufferInFlight)

/-- R143: after BUILD the word at index `24·i + 8·k + (7 - p)` has bit `31 - c` equal to bit `p` of lane `c`'s
channel `ch(k)` at LED `i` for `c < C`, and every other bit 0; no index from 24·N on holds a word; only the
registers of the encoder and the builder change (R27). -/
def Obligations.BuildWritesClosedForm : Prop :=
  ∀ s : State, s.txs = .idle → frameFits s.frame s.c s.n = true →
    ∃ t, exec .build s = .next t ∧
      (∀ (i : Nat) (k : Fin 3) (p : Fin 8), i < s.n →
        ∃ w, Memory.read t.buf (bufIndex i k p) = some w ∧
          ∀ b < 32, w.getLsbD b =
            (decide (24 ≤ b ∧ 31 - b < s.c) && channelBit s.frame (31 - b) i k p)) ∧
      (∀ a, 24 * s.n ≤ a → Memory.read t.buf a = none) ∧
      t = { s with
        inp := t.inp, pl := t.pl, x := t.x, y := t.y, t := t.t, buf := t.buf, pos := none }

/-- R145 (a), (b): the buffer has exactly 24·N words, at the indices 0 to 24·N - 1, and each has its low 24
bits equal to 0. -/
def Obligations.BuildLengthAndLowBits : Prop :=
  ∀ s t : State, exec .build s = .next t →
    t.buf.map Prod.fst = List.range (24 * s.n) ∧ ∀ e ∈ t.buf, lowBitsZero e.2

/-- R145 (c), (d): the buffer depends on the frame, C and N only; nothing of an earlier buffer survives. -/
def Obligations.BuildDependsOnFrameOnly : Prop :=
  ∀ s s' t t' : State, s.frame = s'.frame → s.c = s'.c → s.n = s'.n →
    exec .build s = .next t → exec .build s' = .next t' → t.buf = t'.buf

/-- R146: only the top C bits of a buffer word can be set; with C = 1 a word is 0 or 80000000. -/
def Obligations.BuildUnusedLanesAreZero : Prop :=
  ∀ s t : State, exec .build s = .next t → ∀ e ∈ t.buf,
    (∀ b, b < 32 - s.c → e.2.getLsbD b = false) ∧
    (s.c = 1 → e.2 = 0x00000000 ∨ e.2 = 0x80000000)

/-! ## ProtocolProgram -/

/-- R157: HEADER. -/
def Obligations.HeaderAssertsStrobe : Prop :=
  ∀ s : State, s.en = true → s.st = .header →
    exec .header s = .next { s with dataPin := true, clk := false, stb := true, st := .pull }

/-- R158: PULL pops the head of the queue into OSR and writes no pin; on an empty queue it holds. -/
def Obligations.PullFetchesOrHolds : Prop :=
  ∀ s : State, s.en = true → s.st = .pull →
    (∀ w rest, s.queue = w :: rest →
      exec .pull s =
        .next { s with queue := rest, osr := w, cnt := 0, ph := .low, st := .bitloop0 }) ∧
    (s.queue = [] → exec .pull s = .next s)

/-- R160 (with R159): both halves of a BITLOOP0 bit. -/
def Obligations.BitloopZeroSendsOnes : Prop :=
  ∀ s : State, s.en = true → s.st = .bitloop0 →
    (s.ph = .low → exec .bitloop0 s =
      .next { s with dataPin := true, clk := false, stb := false, ph := .high }) ∧
    (s.ph = .high → s.cnt ≠ 7 → exec .bitloop0 s =
      .next { s with clk := true, ph := .low, cnt := s.cnt + 1 }) ∧
    (s.ph = .high → s.cnt = 7 → exec .bitloop0 s =
      .next { s with clk := true, ph := .low, cnt := 0, st := .bitloop1 })

/-- R162 (with R159): both halves of a BITLOOP1 bit; the low half puts OSR[31] on DATA and shifts OSR left. -/
def Obligations.BitloopOneSendsRealBit : Prop :=
  ∀ s : State, s.en = true → s.st = .bitloop1 →
    (s.ph = .low → exec .bitloop1 s =
      .next { s with
        dataPin := s.osr.getLsbD 31, clk := false, stb := false, ph := .high
        osr := s.osr <<< 1 }) ∧
    (s.ph = .high → s.cnt ≠ 7 → exec .bitloop1 s =
      .next { s with clk := true, ph := .low, cnt := s.cnt + 1 }) ∧
    (s.ph = .high → s.cnt = 7 → exec .bitloop1 s =
      .next { s with clk := true, ph := .low, cnt := 0, st := .bitloop2 })

/-- R164 (with R159): both halves of a BITLOOP2 bit. -/
def Obligations.BitloopTwoSendsZeros : Prop :=
  ∀ s : State, s.en = true → s.st = .bitloop2 →
    (s.ph = .low → exec .bitloop2 s =
      .next { s with dataPin := false, clk := false, stb := false, ph := .high }) ∧
    (s.ph = .high → s.cnt ≠ 7 → exec .bitloop2 s =
      .next { s with clk := true, ph := .low, cnt := s.cnt + 1 }) ∧
    (s.ph = .high → s.cnt = 7 → exec .bitloop2 s =
      .next { s with clk := true, ph := .low, cnt := 0, st := .header })

/-- R14, R40, R167: an operation of the PSM that is not enabled changes nothing. -/
def Obligations.PsmHoldsWhenNotEnabled : Prop :=
  ∀ (i : Instr) (st : PsmState) (s : State), psmStateOf i = some st →
    s.en = false ∨ s.st ≠ st → exec i s = .next s

/-- R166: the transitions of ST, row by row, for the operation the program counter selects. -/
def Obligations.StateTransitionsFollowTable : Prop :=
  ∀ (s : State) (i : Instr), s.en = true → decode s.fetchBytes = .ok (i, []) →
    ∃ t, exec i s = .next t ∧
      (s.st = .header → t.st = .pull) ∧
      (s.st = .pull → s.queue ≠ [] → t.st = .bitloop0 ∧ t.cnt = 0 ∧ t.ph = .low) ∧
      (s.st = .pull → s.queue = [] → t.st = .pull) ∧
      (s.inBitloop = true → s.ph = .low → t.st = s.st ∧ t.ph = .high ∧ t.cnt = s.cnt) ∧
      (s.inBitloop = true → s.ph = .high → s.cnt.toNat < 7 →
        t.st = s.st ∧ t.ph = .low ∧ t.cnt.toNat = s.cnt.toNat + 1) ∧
      (s.st = .bitloop0 → s.ph = .high → s.cnt = 7 →
        t.st = .bitloop1 ∧ t.ph = .low ∧ t.cnt = 0) ∧
      (s.st = .bitloop1 → s.ph = .high → s.cnt = 7 →
        t.st = .bitloop2 ∧ t.ph = .low ∧ t.cnt = 0) ∧
      (s.st = .bitloop2 → s.ph = .high → s.cnt = 7 → t.st = .header ∧ t.cnt = 0)

/-- R172: one pass that pops the word `w`, 50 steps of the PSM from HEADER, leaves the wire frame of `w` and
comes back to HEADER with the word gone. -/
def Obligations.PassSendsWireFrame : Prop :=
  ∀ (s : State) (w : Word) (rest : List Word) (later : List Turn),
    s.turns = psmTurns 50 ++ later → s.en = true → s.st = .header → s.stb = false →
    s.queue = w :: rest →
    ∃ t, runTrace 50 s = some (t, wordFrame w) ∧ t.st = .header ∧ t.cnt = 0 ∧ t.ph = .low ∧
      t.queue = rest ∧ t.osr = w <<< 8 ∧ t.pins = (false, true, false) ∧ t.turns = later

/-- R174, the pin columns: the pin trace (R15) of the 50 steps of a pass. -/
def Obligations.PassDrivesPins : Prop :=
  ∀ (s : State) (w : Word) (rest : List Word) (later : List Turn),
    s.turns = psmTurns 50 ++ later → s.en = true → s.st = .header → s.queue = w :: rest →
    pinTrace 50 s = passPins w

/-- R109, R170: words that agree in bits 31 to 24 give the same pins in every step of their pass. -/
def Obligations.LowBitsNeverReachPins : Prop :=
  ∀ (s : State) (w w' : Word) (rest : List Word) (later : List Turn),
    s.turns = psmTurns 50 ++ later → s.en = true → s.st = .header → s.queue = w :: rest →
    planeOfWord w = planeOfWord w' →
    pinTrace 50 s = pinTrace 50 { s with queue := w' :: rest }

/-- R176 (b): DATA does not change in a step in which CLK rises, whatever operation it is. -/
def Obligations.DataStableWhenClockRises : Prop :=
  ∀ (i : Instr) (s t : State), exec i s = .next t → s.clk = false → t.clk = true →
    t.dataPin = s.dataPin

/-- R26: the PSM sees only its own registers and the queue: from states that agree on them an operation of the
PSM gives next states that agree on them, and it changes nothing else. -/
def Obligations.PsmSeesOnlyItsOwnState : Prop :=
  ∀ (i : Instr) (s s' : State), i.agent = .psm → psmView s = psmView s' →
    ∃ t t', exec i s = .next t ∧ exec i s' = .next t' ∧ psmView t = psmView t' ∧
      t = { s with
        st := t.st, cnt := t.cnt, ph := t.ph, osr := t.osr, queue := t.queue
        dataPin := t.dataPin, clk := t.clk, stb := t.stb }

/-- R26: no operation of the host but CONSTRUCT writes OSR, CNT, ST, PH, a pin or the queue. -/
def Obligations.HostLeavesPsmAlone : Prop :=
  ∀ (i : Instr) (s t : State), i.agent = .host → (∀ c n slot, i ≠ .construct c n slot) →
    exec i s = .next t →
    t.st = s.st ∧ t.cnt = s.cnt ∧ t.ph = s.ph ∧ t.osr = s.osr ∧ t.pins = s.pins ∧ t.queue = s.queue

/-! ## Transmitter -/

/-- R55: where CONSTRUCT makes an instance, the block is in the reset state, row by row. The unspecified
registers IN, PL, X, Y, T, OSR are unconstrained. -/
def Obligations.ConstructEstablishesResetState : Prop :=
  ∀ (c n slot : Nat) (s t : State), c ≤ 8 → exec (.construct c n slot) s = .next t →
    t.st = .header ∧ t.cnt = 0 ∧ t.ph = .low ∧ t.pins = (false, false, false) ∧ t.en = false ∧
      t.queue = [] ∧ t.empty = true ∧ t.full = false ∧ t.txs = .idle ∧ t.busy = false ∧ t.idx = 0 ∧
      t.buf = [] ∧ t.c = c ∧ t.n = n ∧ t.settleTimer = none

/-- R190, R8: CONSTRUCT of a legal shape completes from every quiescent state; it stores the slot and keeps the
caller's frame and the model's own inputs. That the state must be quiescent is the model's reading of R203 and R214
(log 8), whatever slot the held instance has (log 26); that a rejection's record is cleared is its form of R220 (log 7). -/
def Obligations.ConstructCompletesWhenQuiescent : Prop :=
  ∀ (c n slot : Nat) (s : State), 1 ≤ c → c ≤ 8 → 1 ≤ n → s.quiescent = true →
    ∃ t, exec (.construct c n slot) s = .next t ∧
      t.built = true ∧ t.c = c ∧ t.n = n ∧ t.slot = slot ∧ 1 ≤ t.fifoDepth ∧ t.rejected = none ∧
      t.pos = none ∧ t.frame = s.frame ∧ t.prog = s.prog ∧ t.turns = s.turns ∧ t.tick = s.tick ∧
      t.now = s.now

/-- R110: more than 8 lanes are rejected, never truncated: the offending count is recorded (R211) and no
register of any instance is touched. That the rejection is a next state is the model's form of it (log 7). -/
def Obligations.ConstructRejectsTooManyLanes : Prop :=
  ∀ (c n slot : Nat) (s : State), 8 < c →
    exec (.construct c n slot) s = .next { s with rejected := some c }

/-- R216 (`DegenerateShape`, D2) and the model's choice of log 8 (R203, R213, R214), whatever the slot
(log 26): when CONSTRUCT is refused. -/
def Obligations.ConstructRefusals : Prop :=
  ∀ (c n slot : Nat) (s : State), c ≤ 8 →
    (c = 0 ∨ n = 0 → exec (.construct c n slot) s = .refused .degenerateShape) ∧
    (1 ≤ c → 1 ≤ n → s.txs ≠ .idle → exec (.construct c n slot) s = .refused .abortInFlight) ∧
    (1 ≤ c → 1 ≤ n → s.txs = .idle → s.quiescent = false →
      exec (.construct c n slot) s = .refused .disableInFlight)

/-- R191: ENABLE sets EN and changes nothing else. That it is refused before a CONSTRUCT is the model's choice
(R235; log 9). -/
def Obligations.EnableSetsEnableBit : Prop :=
  ∀ s : State,
    (s.built = true → exec .enable s = .next { s with en := true }) ∧
    (s.built = false → exec .enable s = .refused .noInstance)

/-- R192, steps (1) and (2): TRANSMIT builds the buffer from its frame (R143) and hands it to the feeder. That the
work registers stay is the model's choice (log 11). -/
def Obligations.TransmitBuildsAndFeeds : Prop :=
  ∀ (f : Frame) (s : State), s.txs = .idle → s.en = true → frameFits f s.c s.n = true →
    ∃ t, exec (.transmit f) s = .next t ∧
      (∀ a < 24 * s.n, Memory.read t.buf a = some (frameWord f s.c a)) ∧
      (∀ a, 24 * s.n ≤ a → Memory.read t.buf a = none) ∧
      t = { s with
        frame := f, inp := t.inp, pl := t.pl, buf := t.buf, pos := none, idx := 0, txs := .feed }

/-- R212, R239: TRANSMIT is refused while a transmission is in flight, and while EN = 0. -/
def Obligations.TransmitRefusedBusyOrDisabled : Prop :=
  ∀ (f : Frame) (s : State),
    (s.txs ≠ .idle → exec (.transmit f) s = .refused .overlapTransmit) ∧
    (s.txs = .idle → s.en = false → exec (.transmit f) s = .refused .notEnabled)

/-- The model's choice (log 13), from R192's "a frame of C × N pixels": another shape is refused. -/
def Obligations.TransmitRefusesWrongShape : Prop :=
  ∀ (f : Frame) (s : State), s.txs = .idle → s.en = true → frameFits f s.c s.n = false →
    exec (.transmit f) s = .refused .frameShape

/-- R195: PUSH appends the buffer's word at IDX to the queue and steps IDX; where it is not enabled it holds. -/
def Obligations.PushMovesOneWord : Prop :=
  ∀ s : State,
    (∀ v, s.txs = .feed → s.idx < 24 * s.n → s.queue.length < s.fifoDepth →
      Memory.read s.buf s.idx = some v →
      exec .push s = .next { s with queue := s.queue ++ [v], idx := s.idx + 1 }) ∧
    (s.txs ≠ .feed ∨ 24 * s.n ≤ s.idx ∨ s.fifoDepth ≤ s.queue.length → exec .push s = .next s)

/-- R198, R199 on the model's time base (log 3): SETTLE waits until 55 microseconds after the drain, then TXS is
IDLE and the buffer is gone. That IDX keeps its value is the model's choice (U11; log 15). -/
def Obligations.SettleWaitsThenReturns : Prop :=
  ∀ s : State,
    (∀ d, s.txs = .settle → s.settleTimer = some d → d + 55000 ≤ s.now →
      exec .settle s = .next { s with txs := .idle, settleTimer := none, buf := [] }) ∧
    (∀ d, s.txs = .settle → s.settleTimer = some d → s.now < d + 55000 → exec .settle s = .next s) ∧
    (s.txs ≠ .settle → exec .settle s = .next s)

/-- R192 steps (3), (4) and R217, in the step of the last push (the model's choice, log 2): the drain resumes the
host and starts the settle timer. -/
def Obligations.LastPushStartsSettle : Prop :=
  ∀ (s : State) (v : Word), s.nextTurn.agent = .feeder → s.txs = .feed → s.idx + 1 = 24 * s.n →
    s.queue.length < s.fifoDepth → Memory.read s.buf s.idx = some v →
    ∃ t, step s = .next t ∧ t.idx = 24 * s.n ∧ t.drained = true ∧ t.queue = s.queue ++ [v] ∧
      t.txs = .settle ∧ t.settleTimer = some t.now

/-- R198, R240 on the model's time base (log 3): the timer is set at the drain, kept while TXS = SETTLE, and
TXS leaves SETTLE only for IDLE and not before 55 microseconds after the drain. That the drain is delivered in the
step in which DRAINED first holds is the model's choice (log 2). -/
def Obligations.NoReturnBeforeSettleDelay : Prop :=
  ∀ s t : State, step s = .next t →
    (s.txs = .feed → t.txs ≠ .feed →
      t.txs = .settle ∧ t.settleTimer = some t.now ∧ t.drained = true) ∧
    (s.txs = .settle → t.txs = .settle → t.settleTimer = s.settleTimer) ∧
    (s.txs = .settle → t.txs ≠ .settle →
      t.txs = .idle ∧ ∃ d, s.settleTimer = some d ∧ d + 55000 ≤ t.now)

/-- R177: the PSM can move in every state but PULL with an empty queue; the feeder can move while it has words
and the queue is not full; and with words left they are never both blocked. -/
def Obligations.FeederAndPsmNeverDeadlock : Prop :=
  ∀ s : State, s.en = true → 1 ≤ s.fifoDepth →
    (s.st ≠ .pull ∨ s.queue ≠ [] →
      ∃ i t, decode s.fetchBytes = .ok (i, []) ∧ exec i s = .next t ∧ t ≠ s) ∧
    (s.txs = .feed → s.idx < 24 * s.n → (Memory.read s.buf s.idx).isSome = true →
      (s.queue.length < s.fifoDepth → ∃ t, exec .push s = .next t ∧ t ≠ s) ∧
      ((s.st ≠ .pull ∨ s.queue ≠ []) ∨ s.queue.length < s.fifoDepth))

/-- R64, R82: the queue has one producer and one consumer: PUSH appends a word of the buffer, PULL takes the
oldest word, CONSTRUCT makes a new queue, and no other operation touches it. -/
def Obligations.QueueKeepsItsOrder : Prop :=
  ∀ (i : Instr) (s t : State), exec i s = .next t → t.queue = s.queue ∨
    (i = .push ∧ ∃ v, Memory.read s.buf s.idx = some v ∧ t.queue = s.queue ++ [v]) ∨
    (i = .pull ∧ ∃ w, s.queue = w :: t.queue ∧ t.osr = w) ∨
    ∃ c n slot, i = .construct c n slot

/-- R86, R201: while a transmission is in flight no step changes its buffer. -/
def Obligations.BufferUnchangedInFlight : Prop :=
  ∀ s t : State, step s = .next t → s.txs ≠ .idle → t.txs ≠ .idle → t.buf = s.buf

/-- R41, R214, R211: what is fixed at construction changes by CONSTRUCT only, only CONSTRUCT records a rejection,
and nothing but the CONSTRUCT of a new instance clears EN. -/
def Obligations.ShapeFixedByConstruct : Prop :=
  ∀ (i : Instr) (s t : State), (∀ c n slot, i ≠ .construct c n slot) → exec i s = .next t →
    t.c = s.c ∧ t.n = s.n ∧ t.slot = s.slot ∧ t.fifoDepth = s.fifoDepth ∧ t.built = s.built ∧
      t.rejected = s.rejected ∧ (s.en = true → t.en = true)

/-- R43, R250, R253: `DIV = floor(F_SYS_KHZ / 41600)`; it is at least 1 exactly from 41600 kHz on. That the model's own
`DIV` is at least 1 rests on the model's choice of its clock (log 17). -/
def Obligations.DividerAtLeastOne : Prop :=
  (∀ f : Nat, Config.divOf f = f / 41600 ∧ (1 ≤ Config.divOf f ↔ 41600 ≤ f)) ∧ 1 ≤ Config.div

/-! ## The machine -/

/-- R106 (30_encoding.md section 3): the five state codes decode to their operations. R108 (section 4): the three reserved
codes decode to none. That a code stands in one byte is the model's choice (log 20). -/
def Obligations.StateCodesDecode : Prop :=
  decode [0x00] = .ok (.header, []) ∧ decode [0x01] = .ok (.pull, []) ∧
  decode [0x02] = .ok (.bitloop0, []) ∧ decode [0x03] = .ok (.bitloop1, []) ∧
  decode [0x04] = .ok (.bitloop2, []) ∧
  decode [0x05] = .error (.reservedStateCode 5) ∧ decode [0x06] = .error (.reservedStateCode 6) ∧
  decode [0x07] = .error (.reservedStateCode 7)

/-- R106: decoding gives back what was encoded, whatever bytes follow; exactly the operations of the PSM have an
encoding (R90). That an encoding is one byte is the model's choice (log 20). -/
def Obligations.DecodeInvertsEncode : Prop :=
  ∀ i : Instr,
    (∀ (bytes rest : List Byte), encode i = some bytes → decode (bytes ++ rest) = .ok (i, rest)) ∧
    ((encode i).isSome = true ↔ i.agent = .psm)

/-- R30, R10: the step of a PSM's turn is `exec` of the operation its program counter decodes to. The model's choices in
it: the turn comes from the schedule and its time passes (log 1, log 3), the drain event is delivered at the end of the
same step (log 2), and the program counter is read as one byte (log 20). -/
def Obligations.StepRunsDecodedOperation : Prop :=
  ∀ (s : State) (i : Instr), s.nextTurn.agent = .psm → decode s.fetchBytes = .ok (i, []) →
    step s = onNext State.deliverDrain (exec i s.takeTurn)

/-- R10, R192, R193, R194: the steps of the feeder, of the host, which waits in FEED and in SETTLE, and of another task,
whose calls may not begin while one is in flight (R193, R212, R241). The model's choices in it: the listed turn and its
time (log 1, log 3), the drain event delivered at the end of the same step (log 2), the program of calls (log 10), the
names of the refusals of an overlapping call (log 27). -/
def Obligations.StepRunsFeederAndHost : Prop :=
  ∀ s : State,
    (s.nextTurn.agent = .feeder → step s = onNext State.deliverDrain (exec .push s.takeTurn)) ∧
    (s.nextTurn.agent = .host → s.txs = .settle →
      step s = onNext State.deliverDrain (exec .settle s.takeTurn)) ∧
    (s.nextTurn.agent = .host → s.txs = .feed → step s = .next s.takeTurn.deliverDrain) ∧
    (s.nextTurn.agent = .host ∨ s.nextTurn.agent = .otherTask → s.txs = .idle →
      (s.prog = [] → step s = .next s.takeTurn.deliverDrain) ∧
      (∀ i rest, s.prog = i :: rest →
        (i.agent = .host →
          step s = onNext State.deliverDrain (exec i { s.takeTurn with prog := rest })) ∧
        (i.agent ≠ .host → step s = .refused .notHostOperation))) ∧
    (s.nextTurn.agent = .otherTask → s.txs ≠ .idle →
      (s.prog = [] → step s = .next s.takeTurn.deliverDrain) ∧
      (∀ i rest, s.prog = i :: rest →
        (∀ f, i = .transmit f → step s = .refused .overlapTransmit) ∧
        (i.agent = .host → (∀ f, i ≠ .transmit f) → step s = .refused .callInFlight) ∧
        (i.agent ≠ .host → step s = .refused .notHostOperation)))

/-- R55, the rows with a stated value (the reset state before CONSTRUCT has no instance: log 4). -/
def Obligations.ResetValues : Prop :=
  State.reset.st = .header ∧ State.reset.cnt = 0 ∧ State.reset.ph = .low ∧
  State.reset.pins = (false, false, false) ∧ State.reset.en = false ∧ State.reset.queue = [] ∧
  State.reset.txs = .idle ∧ State.reset.idx = 0 ∧ State.reset.buf = [] ∧
  State.reset.settleTimer = none

/-- The invariant holds at reset: R55's values meet it, with the model's choices of a reset state without an instance
(log 4) and of the depth 1 there (R8, R64; log 16). -/
def Obligations.ResetHasInvariant : Prop := Invariant State.reset

/-- Every step keeps the invariant, from every state that has it: the buffer stays canonical and complete while
it is fed (R78), the queue within FIFO_DEPTH (R64), low bits zero (R94), the pins as R169 and R176 say, the settle
timer running exactly in SETTLE (R223). That a buffer which is fed has a word left rests on the drain event being
delivered in the step of the last push (log 2), and that the time of drain is past on the time base (log 3). -/
def Obligations.StepKeepsInvariant : Prop :=
  ∀ s t : State, Invariant s → step s = .next t → Invariant t

/-- R210: with no call of the host left, no step faults or is refused. -/
def Obligations.NothingStopsWithoutCalls : Prop :=
  ∀ s : State, Invariant s → s.prog = [] → ∃ t, step s = .next t

/-- R80, R81, R175: what a step puts on the wire is exactly what the machine owed: nothing is lost, repeated,
reordered or invented, whoever moves and however the turns interleave. -/
def Obligations.WireDebtIsConserved : Prop :=
  ∀ s t : State, Invariant s → s.prog = [] → step s = .next t → wireEvents s t ++ wireDue t = wireDue s

/-- R173, R175 (d): a run of any length under any schedule leaves on the wire a prefix of what was owed at its
start, and all of it when it ends quiescent; neither the schedule nor FIFO_DEPTH enters. -/
def Obligations.WireTraceOfEveryRun : Prop :=
  ∀ (k : Nat) (s t : State) (trace : List WireEvent), Invariant s → s.prog = [] →
    runTrace k s = some (t, trace) →
    trace ++ wireDue t = wireDue s ∧
    (t.en = true → t.quiescent = true → trace = wireDue s)

/-- R143, R173: an accepted TRANSMIT owes the wire, after what was owed before, the pulses of each word of its
frame in index order, each with the strobe that follows. -/
def Obligations.TransmitOwesItsFrame : Prop :=
  ∀ (f : Frame) (s t : State), Invariant s → exec (.transmit f) s = .next t →
    wireDue t = wireDue s ++
      (List.range (24 * s.n)).flatMap fun a => wordPulses (frameWord f s.c a) ++ [.strobe]
end

