-- ==== Sys2Proof/Laws/Memory.lean ====
section
/-! SUPPORT. The laws of the output buffer: a read after a write, and the canonical form every operation keeps. -/

namespace Sys2Proof.Machine

@[simp] theorem Memory.read_nil (a : Nat) : Memory.read [] a = none := rfl

theorem Memory.read_cons (b : Nat) (v : Word) (rest : Memory) (a : Nat) :
    Memory.read ((b, v) :: rest) a = if a = b then some v else Memory.read rest a := rfl

/-- A write is read back. -/
@[simp] theorem Memory.read_write_same (m : Memory) (a : Nat) (v : Word) :
    Memory.read (Memory.write m a v) a = some v := by
  induction m with
  | nil => simp [Memory.write, Memory.read]
  | cons e rest ih =>
    obtain ⟨b, u⟩ := e
    simp only [Memory.write]
    split
    · simp [Memory.read]
    · split
      · simp [Memory.read]
      · simp [Memory.read, *]

/-- A write leaves every other index alone. -/
theorem Memory.read_write_other (m : Memory) (a b : Nat) (v : Word) (h : b ≠ a) :
    Memory.read (Memory.write m a v) b = Memory.read m b := by
  induction m with
  | nil => simp [Memory.write, Memory.read, h]
  | cons e rest ih =>
    obtain ⟨d, u⟩ := e
    simp only [Memory.write]
    split
    · simp [Memory.read, h]
    · split
      · next hab => subst hab; simp [Memory.read, h]
      · simp [Memory.read, ih]

/-- What a write does, at every index. -/
theorem Memory.read_write (m : Memory) (a b : Nat) (v : Word) :
    Memory.read (Memory.write m a v) b = if b = a then some v else Memory.read m b := by
  split
  · next h => subst h; simp
  · next h => exact Memory.read_write_other m a b v h

theorem Memory.risesFrom_mono {lo lo' : Nat} {m : Memory} (h : lo ≤ lo')
    (hm : Memory.risesFrom lo' m = true) : Memory.risesFrom lo m = true := by
  cases m with
  | nil => rfl
  | cons e rest =>
    obtain ⟨b, v⟩ := e
    simp only [Memory.risesFrom, Bool.and_eq_true, decide_eq_true_eq] at hm ⊢
    exact ⟨by omega, hm.2⟩

theorem Memory.risesFrom_write {lo : Nat} {m : Memory} {a : Nat} (v : Word) (ha : lo ≤ a)
    (hm : Memory.risesFrom lo m = true) : Memory.risesFrom lo (Memory.write m a v) = true := by
  induction m generalizing lo with
  | nil => simp [Memory.write, Memory.risesFrom, ha]
  | cons e rest ih =>
    obtain ⟨b, u⟩ := e
    simp only [Memory.risesFrom, Bool.and_eq_true, decide_eq_true_eq] at hm
    simp only [Memory.write]
    split
    · simp only [Memory.risesFrom, Bool.and_eq_true, decide_eq_true_eq]
      exact ⟨ha, by omega, hm.2⟩
    · split
      · next hab => subst hab; simp [Memory.risesFrom, ha, hm.2]
      · simp only [Memory.risesFrom, Bool.and_eq_true, decide_eq_true_eq]
        exact ⟨hm.1, ih (by omega) hm.2⟩

/-- A write keeps the canonical form. -/
theorem Memory.wf_write {m : Memory} (a : Nat) (v : Word) (hm : Memory.wf m = true) :
    Memory.wf (Memory.write m a v) = true := Memory.risesFrom_write v (Nat.zero_le a) hm

@[simp] theorem Memory.wf_nil : Memory.wf [] = true := rfl

/-- The buffer of the reset state is in canonical form. -/
theorem Memory.wf_reset : Memory.wf State.reset.buf = true := rfl

/-- What a write lists: the written pair and pairs that were listed. -/
theorem Memory.mem_write {m : Memory} {a : Nat} {v : Word} {e : Nat × Word}
    (h : e ∈ Memory.write m a v) : e = (a, v) ∨ e ∈ m := by
  induction m with
  | nil => simpa [Memory.write] using h
  | cons d rest ih =>
    obtain ⟨b, u⟩ := d
    simp only [Memory.write] at h
    split at h
    · simpa using h
    · split at h
      · rcases List.mem_cons.1 h with h | h
        · exact .inl h
        · exact .inr (List.mem_cons_of_mem _ h)
      · rcases List.mem_cons.1 h with h | h
        · exact .inr (h ▸ List.mem_cons_self)
        · rcases ih h with h | h
          · exact .inl h
          · exact .inr (List.mem_cons_of_mem _ h)

/-- A word that is read is listed. -/
theorem Memory.mem_of_read {m : Memory} {a : Nat} {v : Word} (h : Memory.read m a = some v) :
    (a, v) ∈ m := by
  induction m with
  | nil => simp at h
  | cons d rest ih =>
    obtain ⟨b, u⟩ := d
    simp only [Memory.read] at h
    split at h
    · next hab => subst hab; simp_all
    · exact List.mem_cons_of_mem _ (ih h)

/-- A list whose indices rise above the last is extended at its end by a write past the end. -/
theorem Memory.write_append {lo : Nat} {m : Memory} {a : Nat} {v : Word}
    (hm : Memory.risesFrom lo m = true) (ha : ∀ e ∈ m, e.1 < a) :
    Memory.write m a v = m ++ [(a, v)] := by
  induction m generalizing lo with
  | nil => rfl
  | cons d rest ih =>
    obtain ⟨b, u⟩ := d
    simp only [Memory.risesFrom, Bool.and_eq_true, decide_eq_true_eq] at hm
    have hb : b < a := ha (b, u) List.mem_cons_self
    simp only [Memory.write, if_neg (Nat.not_lt.2 hb.le), if_neg (Nat.ne_of_gt hb), List.cons_append]
    rw [ih hm.2 fun e he => ha e (List.mem_cons_of_mem _ he)]

end Sys2Proof.Machine
end

