-- ==== Sys2Proof/Laws/Operands.lean ====
section
/-! SUPPORT. The laws of operand assembly: entries and bits of what is built, the transmission word, the buffer index. -/

namespace Sys2Proof.Machine

/-- Entry `j` of the array built from `f` is `f j`. -/
@[simp] theorem entry_bytesOf (f : Fin 8 → Byte) (j : Fin 8) : entry (bytesOf f) j = f j := by
  fin_cases j <;> rfl

/-- Array registers with equal entries are equal. -/
theorem bytes_ext {a b : Bytes8} (h : ∀ j, entry a j = entry b j) : a = b := by
  obtain ⟨a0, a1, a2, a3, a4, a5, a6, a7⟩ := a
  obtain ⟨b0, b1, b2, b3, b4, b5, b6, b7⟩ := b
  have h0 : a0 = b0 := h 0
  have h1 : a1 = b1 := h 1
  have h2 : a2 = b2 := h 2
  have h3 : a3 = b3 := h 3
  have h4 : a4 = b4 := h 4
  have h5 : a5 = b5 := h 5
  have h6 : a6 = b6 := h 6
  have h7 : a7 = b7 := h 7
  subst h0 h1 h2 h3 h4 h5 h6 h7
  rfl

/-- Bit `b` of the byte built from `f` is `f b`. -/
@[simp] theorem byteOfBits_bit (f : Fin 8 → Bool) (b : Fin 8) : (byteOfBits f).getLsbD b.val = f b := by
  fin_cases b <;> simp only [byteOfBits, BitVec.getLsbD_append] <;> simp

@[simp] theorem byteOfBits_getElem (f : Fin 8 → Bool) (b : Fin 8) : (byteOfBits f)[b.val] = f b := by
  rw [← BitVec.getLsbD_eq_getElem, byteOfBits_bit]

/-- Bytes with equal bits are equal. -/
theorem byte_ext {a b : Byte} (h : ∀ j : Fin 8, a.getLsbD j.val = b.getLsbD j.val) : a = b :=
  BitVec.eq_of_getLsbD_eq fun i hi => h ⟨i, hi⟩

/-- Bits of a transmission word (R94): bit `24 + b` is bit `b` of the plane byte, bits 23 to 0 are 0. -/
theorem wordOfPlane_bit (b : Byte) (i : Nat) :
    (wordOfPlane b).getLsbD i = (decide (24 ≤ i) && b.getLsbD (i - 24)) := by
  simp only [wordOfPlane, BitVec.getLsbD_shiftLeft, BitVec.getLsbD_setWidth]
  by_cases h : i < 24
  · simp [h, Nat.not_le.2 h]
  · by_cases h' : i < 32
    · simp [h, h', Nat.not_lt.1 h]
      intro _
      omega
    · simp [h']
      intro _
      exact BitVec.getLsbD_of_ge b (i - 24) (by omega)

/-- The plane byte comes back out of its word (R68). -/
@[simp] theorem planeOfWord_wordOfPlane (b : Byte) : planeOfWord (wordOfPlane b) = b := by
  apply byte_ext
  intro j
  have := j.isLt
  simp only [planeOfWord, BitVec.getLsbD_extractLsb', wordOfPlane_bit, this, decide_true,
    Bool.true_and, Nat.le_add_right, Nat.add_sub_cancel_left]

/-- Bit `j` of plane byte `p` (R120). -/
@[simp] theorem transposeBytes_bit (a : Bytes8) (p j : Fin 8) :
    (entry (transposeBytes a) p).getLsbD j.val = (entry a j).getLsbD p.val := by
  simp [transposeBytes]

/-- Entry `j` of the lane array (R92). -/
@[simp] theorem laneArray_entry (f : Frame) (c i : Nat) (k : Fin 3) (j : Fin 8) :
    entry (laneArray f c i k) j =
      if 7 - j.val < c then (frameRead f (7 - j.val) i (channelOf k)).getD 0 else 0 := by
  simp [laneArray]

/-- The buffer index as arithmetic (R62). -/
theorem bufIndex_eq (i : Nat) (k : Fin 3) (p : Fin 8) :
    bufIndex i k p = 24 * i + 8 * k.val + (7 - p.val) := rfl

/-- Every index is the index of its position (R95). -/
theorem bufIndex_indexPos (w : Nat) :
    bufIndex (indexPos w).i (indexPos w).k (indexPos w).p = w := by
  simp only [indexPos, bufIndex_eq]
  omega

/-- Every position is the position of its index (R95). -/
theorem indexPos_bufIndex (i : Nat) (k : Fin 3) (p : Fin 8) :
    indexPos (bufIndex i k p) = ⟨i, k, p⟩ := by
  have hk := k.isLt
  have hp := p.isLt
  simp only [indexPos, bufIndex_eq, BuildPos.mk.injEq, Fin.ext_iff]
  omega

/-- In a grid every pixel can be read (R60). -/
theorem frameRead_isSome {f : Frame} {c n : Nat} (hf : frameFits f c n = true) {lane i : Nat}
    (hl : lane < c) (hi : i < n) (ch : Channel) : (frameRead f lane i ch).isSome = true := by
  simp only [frameFits, Bool.and_eq_true, beq_iff_eq, List.all_eq_true] at hf
  obtain ⟨hc, hn⟩ := hf
  have hlf : lane < f.length := hc ▸ hl
  have hlen := hn f[lane] (List.getElem_mem hlf)
  simp [frameRead, List.getElem?_eq_getElem hlf, hlen, hi]

end Sys2Proof.Machine
end

