-- ==== Sys2Proof/Laws/State.lean ====
section
/-! SUPPORT. One lemma per field per named update of the state: what each update writes and what it leaves. -/

namespace Sys2Proof.Machine

variable (s : State)

/-! Driving the three pins writes them and nothing else (R13). -/

@[simp] theorem State.drivePins_inp (d k b : Bool) : (s.drivePins d k b).inp = s.inp := rfl
@[simp] theorem State.drivePins_pl (d k b : Bool) : (s.drivePins d k b).pl = s.pl := rfl
@[simp] theorem State.drivePins_x (d k b : Bool) : (s.drivePins d k b).x = s.x := rfl
@[simp] theorem State.drivePins_y (d k b : Bool) : (s.drivePins d k b).y = s.y := rfl
@[simp] theorem State.drivePins_t (d k b : Bool) : (s.drivePins d k b).t = s.t := rfl
@[simp] theorem State.drivePins_pos (d k b : Bool) : (s.drivePins d k b).pos = s.pos := rfl
@[simp] theorem State.drivePins_frame (d k b : Bool) : (s.drivePins d k b).frame = s.frame := rfl
@[simp] theorem State.drivePins_buf (d k b : Bool) : (s.drivePins d k b).buf = s.buf := rfl
@[simp] theorem State.drivePins_built (d k b : Bool) : (s.drivePins d k b).built = s.built := rfl
@[simp] theorem State.drivePins_c (d k b : Bool) : (s.drivePins d k b).c = s.c := rfl
@[simp] theorem State.drivePins_n (d k b : Bool) : (s.drivePins d k b).n = s.n := rfl
@[simp] theorem State.drivePins_slot (d k b : Bool) : (s.drivePins d k b).slot = s.slot := rfl
@[simp] theorem State.drivePins_fifoDepth (d k b : Bool) : (s.drivePins d k b).fifoDepth = s.fifoDepth := rfl
@[simp] theorem State.drivePins_txs (d k b : Bool) : (s.drivePins d k b).txs = s.txs := rfl
@[simp] theorem State.drivePins_idx (d k b : Bool) : (s.drivePins d k b).idx = s.idx := rfl
@[simp] theorem State.drivePins_settleTimer (d k b : Bool) :
    (s.drivePins d k b).settleTimer = s.settleTimer := rfl
@[simp] theorem State.drivePins_rejected (d k b : Bool) : (s.drivePins d k b).rejected = s.rejected := rfl
@[simp] theorem State.drivePins_queue (d k b : Bool) : (s.drivePins d k b).queue = s.queue := rfl
@[simp] theorem State.drivePins_en (d k b : Bool) : (s.drivePins d k b).en = s.en := rfl
@[simp] theorem State.drivePins_st (d k b : Bool) : (s.drivePins d k b).st = s.st := rfl
@[simp] theorem State.drivePins_cnt (d k b : Bool) : (s.drivePins d k b).cnt = s.cnt := rfl
@[simp] theorem State.drivePins_ph (d k b : Bool) : (s.drivePins d k b).ph = s.ph := rfl
@[simp] theorem State.drivePins_osr (d k b : Bool) : (s.drivePins d k b).osr = s.osr := rfl
@[simp] theorem State.drivePins_dataPin (d k b : Bool) : (s.drivePins d k b).dataPin = d := rfl
@[simp] theorem State.drivePins_clk (d k b : Bool) : (s.drivePins d k b).clk = k := rfl
@[simp] theorem State.drivePins_stb (d k b : Bool) : (s.drivePins d k b).stb = b := rfl
@[simp] theorem State.drivePins_prog (d k b : Bool) : (s.drivePins d k b).prog = s.prog := rfl
@[simp] theorem State.drivePins_turns (d k b : Bool) : (s.drivePins d k b).turns = s.turns := rfl
@[simp] theorem State.drivePins_tick (d k b : Bool) : (s.drivePins d k b).tick = s.tick := rfl
@[simp] theorem State.drivePins_now (d k b : Bool) : (s.drivePins d k b).now = s.now := rfl
@[simp] theorem State.drivePins_freeCount (d k b : Bool) : (s.drivePins d k b).freeCount = s.freeCount := rfl

/-! The low half of a bit writes the pins and PH (R159). -/

@[simp] theorem State.bitLow_inp (d : Bool) : (s.bitLow d).inp = s.inp := rfl
@[simp] theorem State.bitLow_pl (d : Bool) : (s.bitLow d).pl = s.pl := rfl
@[simp] theorem State.bitLow_x (d : Bool) : (s.bitLow d).x = s.x := rfl
@[simp] theorem State.bitLow_y (d : Bool) : (s.bitLow d).y = s.y := rfl
@[simp] theorem State.bitLow_t (d : Bool) : (s.bitLow d).t = s.t := rfl
@[simp] theorem State.bitLow_pos (d : Bool) : (s.bitLow d).pos = s.pos := rfl
@[simp] theorem State.bitLow_frame (d : Bool) : (s.bitLow d).frame = s.frame := rfl
@[simp] theorem State.bitLow_buf (d : Bool) : (s.bitLow d).buf = s.buf := rfl
@[simp] theorem State.bitLow_built (d : Bool) : (s.bitLow d).built = s.built := rfl
@[simp] theorem State.bitLow_c (d : Bool) : (s.bitLow d).c = s.c := rfl
@[simp] theorem State.bitLow_n (d : Bool) : (s.bitLow d).n = s.n := rfl
@[simp] theorem State.bitLow_slot (d : Bool) : (s.bitLow d).slot = s.slot := rfl
@[simp] theorem State.bitLow_fifoDepth (d : Bool) : (s.bitLow d).fifoDepth = s.fifoDepth := rfl
@[simp] theorem State.bitLow_txs (d : Bool) : (s.bitLow d).txs = s.txs := rfl
@[simp] theorem State.bitLow_idx (d : Bool) : (s.bitLow d).idx = s.idx := rfl
@[simp] theorem State.bitLow_settleTimer (d : Bool) : (s.bitLow d).settleTimer = s.settleTimer := rfl
@[simp] theorem State.bitLow_rejected (d : Bool) : (s.bitLow d).rejected = s.rejected := rfl
@[simp] theorem State.bitLow_queue (d : Bool) : (s.bitLow d).queue = s.queue := rfl
@[simp] theorem State.bitLow_en (d : Bool) : (s.bitLow d).en = s.en := rfl
@[simp] theorem State.bitLow_st (d : Bool) : (s.bitLow d).st = s.st := rfl
@[simp] theorem State.bitLow_cnt (d : Bool) : (s.bitLow d).cnt = s.cnt := rfl
@[simp] theorem State.bitLow_ph (d : Bool) : (s.bitLow d).ph = .high := rfl
@[simp] theorem State.bitLow_osr (d : Bool) : (s.bitLow d).osr = s.osr := rfl
@[simp] theorem State.bitLow_dataPin (d : Bool) : (s.bitLow d).dataPin = d := rfl
@[simp] theorem State.bitLow_clk (d : Bool) : (s.bitLow d).clk = false := rfl
@[simp] theorem State.bitLow_stb (d : Bool) : (s.bitLow d).stb = false := rfl
@[simp] theorem State.bitLow_prog (d : Bool) : (s.bitLow d).prog = s.prog := rfl
@[simp] theorem State.bitLow_turns (d : Bool) : (s.bitLow d).turns = s.turns := rfl
@[simp] theorem State.bitLow_tick (d : Bool) : (s.bitLow d).tick = s.tick := rfl
@[simp] theorem State.bitLow_now (d : Bool) : (s.bitLow d).now = s.now := rfl
@[simp] theorem State.bitLow_freeCount (d : Bool) : (s.bitLow d).freeCount = s.freeCount := rfl

/-! The high half of a bit writes CLK, PH, CNT and ST (R159). -/

@[simp] theorem State.bitHigh_inp (next : PsmState) : (s.bitHigh next).inp = s.inp := rfl
@[simp] theorem State.bitHigh_pl (next : PsmState) : (s.bitHigh next).pl = s.pl := rfl
@[simp] theorem State.bitHigh_x (next : PsmState) : (s.bitHigh next).x = s.x := rfl
@[simp] theorem State.bitHigh_y (next : PsmState) : (s.bitHigh next).y = s.y := rfl
@[simp] theorem State.bitHigh_t (next : PsmState) : (s.bitHigh next).t = s.t := rfl
@[simp] theorem State.bitHigh_pos (next : PsmState) : (s.bitHigh next).pos = s.pos := rfl
@[simp] theorem State.bitHigh_frame (next : PsmState) : (s.bitHigh next).frame = s.frame := rfl
@[simp] theorem State.bitHigh_buf (next : PsmState) : (s.bitHigh next).buf = s.buf := rfl
@[simp] theorem State.bitHigh_built (next : PsmState) : (s.bitHigh next).built = s.built := rfl
@[simp] theorem State.bitHigh_c (next : PsmState) : (s.bitHigh next).c = s.c := rfl
@[simp] theorem State.bitHigh_n (next : PsmState) : (s.bitHigh next).n = s.n := rfl
@[simp] theorem State.bitHigh_slot (next : PsmState) : (s.bitHigh next).slot = s.slot := rfl
@[simp] theorem State.bitHigh_fifoDepth (next : PsmState) : (s.bitHigh next).fifoDepth = s.fifoDepth := rfl
@[simp] theorem State.bitHigh_txs (next : PsmState) : (s.bitHigh next).txs = s.txs := rfl
@[simp] theorem State.bitHigh_idx (next : PsmState) : (s.bitHigh next).idx = s.idx := rfl
@[simp] theorem State.bitHigh_settleTimer (next : PsmState) :
    (s.bitHigh next).settleTimer = s.settleTimer := rfl
@[simp] theorem State.bitHigh_rejected (next : PsmState) : (s.bitHigh next).rejected = s.rejected := rfl
@[simp] theorem State.bitHigh_queue (next : PsmState) : (s.bitHigh next).queue = s.queue := rfl
@[simp] theorem State.bitHigh_en (next : PsmState) : (s.bitHigh next).en = s.en := rfl
@[simp] theorem State.bitHigh_st (next : PsmState) :
    (s.bitHigh next).st = if s.lastBit = true then next else s.st := rfl
@[simp] theorem State.bitHigh_cnt (next : PsmState) :
    (s.bitHigh next).cnt = if s.lastBit = true then 0 else s.cnt + 1 := rfl
@[simp] theorem State.bitHigh_ph (next : PsmState) : (s.bitHigh next).ph = .low := rfl
@[simp] theorem State.bitHigh_osr (next : PsmState) : (s.bitHigh next).osr = s.osr := rfl
@[simp] theorem State.bitHigh_dataPin (next : PsmState) : (s.bitHigh next).dataPin = s.dataPin := rfl
@[simp] theorem State.bitHigh_clk (next : PsmState) : (s.bitHigh next).clk = true := rfl
@[simp] theorem State.bitHigh_stb (next : PsmState) : (s.bitHigh next).stb = s.stb := rfl
@[simp] theorem State.bitHigh_prog (next : PsmState) : (s.bitHigh next).prog = s.prog := rfl
@[simp] theorem State.bitHigh_turns (next : PsmState) : (s.bitHigh next).turns = s.turns := rfl
@[simp] theorem State.bitHigh_tick (next : PsmState) : (s.bitHigh next).tick = s.tick := rfl
@[simp] theorem State.bitHigh_now (next : PsmState) : (s.bitHigh next).now = s.now := rfl
@[simp] theorem State.bitHigh_freeCount (next : PsmState) : (s.bitHigh next).freeCount = s.freeCount := rfl

/-! The drain event writes TXS and the settle timer (R217). -/

@[simp] theorem State.deliverDrain_inp : (s.deliverDrain).inp = s.inp := rfl
@[simp] theorem State.deliverDrain_pl : (s.deliverDrain).pl = s.pl := rfl
@[simp] theorem State.deliverDrain_x : (s.deliverDrain).x = s.x := rfl
@[simp] theorem State.deliverDrain_y : (s.deliverDrain).y = s.y := rfl
@[simp] theorem State.deliverDrain_t : (s.deliverDrain).t = s.t := rfl
@[simp] theorem State.deliverDrain_pos : (s.deliverDrain).pos = s.pos := rfl
@[simp] theorem State.deliverDrain_frame : (s.deliverDrain).frame = s.frame := rfl
@[simp] theorem State.deliverDrain_buf : (s.deliverDrain).buf = s.buf := rfl
@[simp] theorem State.deliverDrain_built : (s.deliverDrain).built = s.built := rfl
@[simp] theorem State.deliverDrain_c : (s.deliverDrain).c = s.c := rfl
@[simp] theorem State.deliverDrain_n : (s.deliverDrain).n = s.n := rfl
@[simp] theorem State.deliverDrain_slot : (s.deliverDrain).slot = s.slot := rfl
@[simp] theorem State.deliverDrain_fifoDepth : (s.deliverDrain).fifoDepth = s.fifoDepth := rfl
@[simp] theorem State.deliverDrain_txs :
    (s.deliverDrain).txs = if s.drainDue = true then .settle else s.txs := rfl
@[simp] theorem State.deliverDrain_idx : (s.deliverDrain).idx = s.idx := rfl
@[simp] theorem State.deliverDrain_settleTimer :
    (s.deliverDrain).settleTimer = if s.drainDue = true then some s.now else s.settleTimer := rfl
@[simp] theorem State.deliverDrain_rejected : (s.deliverDrain).rejected = s.rejected := rfl
@[simp] theorem State.deliverDrain_queue : (s.deliverDrain).queue = s.queue := rfl
@[simp] theorem State.deliverDrain_en : (s.deliverDrain).en = s.en := rfl
@[simp] theorem State.deliverDrain_st : (s.deliverDrain).st = s.st := rfl
@[simp] theorem State.deliverDrain_cnt : (s.deliverDrain).cnt = s.cnt := rfl
@[simp] theorem State.deliverDrain_ph : (s.deliverDrain).ph = s.ph := rfl
@[simp] theorem State.deliverDrain_osr : (s.deliverDrain).osr = s.osr := rfl
@[simp] theorem State.deliverDrain_dataPin : (s.deliverDrain).dataPin = s.dataPin := rfl
@[simp] theorem State.deliverDrain_clk : (s.deliverDrain).clk = s.clk := rfl
@[simp] theorem State.deliverDrain_stb : (s.deliverDrain).stb = s.stb := rfl
@[simp] theorem State.deliverDrain_prog : (s.deliverDrain).prog = s.prog := rfl
@[simp] theorem State.deliverDrain_turns : (s.deliverDrain).turns = s.turns := rfl
@[simp] theorem State.deliverDrain_tick : (s.deliverDrain).tick = s.tick := rfl
@[simp] theorem State.deliverDrain_now : (s.deliverDrain).now = s.now := rfl
@[simp] theorem State.deliverDrain_freeCount : (s.deliverDrain).freeCount = s.freeCount := rfl

/-! Taking a turn writes the model's own schedule, counter and time base. -/

@[simp] theorem State.takeTurn_inp : (s.takeTurn).inp = s.inp := rfl
@[simp] theorem State.takeTurn_pl : (s.takeTurn).pl = s.pl := rfl
@[simp] theorem State.takeTurn_x : (s.takeTurn).x = s.x := rfl
@[simp] theorem State.takeTurn_y : (s.takeTurn).y = s.y := rfl
@[simp] theorem State.takeTurn_t : (s.takeTurn).t = s.t := rfl
@[simp] theorem State.takeTurn_pos : (s.takeTurn).pos = s.pos := rfl
@[simp] theorem State.takeTurn_frame : (s.takeTurn).frame = s.frame := rfl
@[simp] theorem State.takeTurn_buf : (s.takeTurn).buf = s.buf := rfl
@[simp] theorem State.takeTurn_built : (s.takeTurn).built = s.built := rfl
@[simp] theorem State.takeTurn_c : (s.takeTurn).c = s.c := rfl
@[simp] theorem State.takeTurn_n : (s.takeTurn).n = s.n := rfl
@[simp] theorem State.takeTurn_slot : (s.takeTurn).slot = s.slot := rfl
@[simp] theorem State.takeTurn_fifoDepth : (s.takeTurn).fifoDepth = s.fifoDepth := rfl
@[simp] theorem State.takeTurn_txs : (s.takeTurn).txs = s.txs := rfl
@[simp] theorem State.takeTurn_idx : (s.takeTurn).idx = s.idx := rfl
@[simp] theorem State.takeTurn_settleTimer : (s.takeTurn).settleTimer = s.settleTimer := rfl
@[simp] theorem State.takeTurn_rejected : (s.takeTurn).rejected = s.rejected := rfl
@[simp] theorem State.takeTurn_queue : (s.takeTurn).queue = s.queue := rfl
@[simp] theorem State.takeTurn_en : (s.takeTurn).en = s.en := rfl
@[simp] theorem State.takeTurn_st : (s.takeTurn).st = s.st := rfl
@[simp] theorem State.takeTurn_cnt : (s.takeTurn).cnt = s.cnt := rfl
@[simp] theorem State.takeTurn_ph : (s.takeTurn).ph = s.ph := rfl
@[simp] theorem State.takeTurn_osr : (s.takeTurn).osr = s.osr := rfl
@[simp] theorem State.takeTurn_dataPin : (s.takeTurn).dataPin = s.dataPin := rfl
@[simp] theorem State.takeTurn_clk : (s.takeTurn).clk = s.clk := rfl
@[simp] theorem State.takeTurn_stb : (s.takeTurn).stb = s.stb := rfl
@[simp] theorem State.takeTurn_prog : (s.takeTurn).prog = s.prog := rfl
@[simp] theorem State.takeTurn_turns : (s.takeTurn).turns = s.turns.tail := rfl
@[simp] theorem State.takeTurn_tick :
    (s.takeTurn).tick = if s.turns.isEmpty = true then s.tick + 1 else s.tick := rfl
@[simp] theorem State.takeTurn_now : (s.takeTurn).now = s.now + s.nextTurn.dt := rfl
@[simp] theorem State.takeTurn_freeCount : (s.takeTurn).freeCount = s.freeCount := rfl

/-! TRANSPOSE8 writes PL (R27). -/

@[simp] theorem State.transpose_inp : (s.transpose).inp = s.inp := rfl
@[simp] theorem State.transpose_pl : (s.transpose).pl = transposeBytes s.inp := rfl
@[simp] theorem State.transpose_x : (s.transpose).x = s.x := rfl
@[simp] theorem State.transpose_y : (s.transpose).y = s.y := rfl
@[simp] theorem State.transpose_t : (s.transpose).t = s.t := rfl
@[simp] theorem State.transpose_pos : (s.transpose).pos = s.pos := rfl
@[simp] theorem State.transpose_frame : (s.transpose).frame = s.frame := rfl
@[simp] theorem State.transpose_buf : (s.transpose).buf = s.buf := rfl
@[simp] theorem State.transpose_built : (s.transpose).built = s.built := rfl
@[simp] theorem State.transpose_c : (s.transpose).c = s.c := rfl
@[simp] theorem State.transpose_n : (s.transpose).n = s.n := rfl
@[simp] theorem State.transpose_slot : (s.transpose).slot = s.slot := rfl
@[simp] theorem State.transpose_fifoDepth : (s.transpose).fifoDepth = s.fifoDepth := rfl
@[simp] theorem State.transpose_txs : (s.transpose).txs = s.txs := rfl
@[simp] theorem State.transpose_idx : (s.transpose).idx = s.idx := rfl
@[simp] theorem State.transpose_settleTimer : (s.transpose).settleTimer = s.settleTimer := rfl
@[simp] theorem State.transpose_rejected : (s.transpose).rejected = s.rejected := rfl
@[simp] theorem State.transpose_queue : (s.transpose).queue = s.queue := rfl
@[simp] theorem State.transpose_en : (s.transpose).en = s.en := rfl
@[simp] theorem State.transpose_st : (s.transpose).st = s.st := rfl
@[simp] theorem State.transpose_cnt : (s.transpose).cnt = s.cnt := rfl
@[simp] theorem State.transpose_ph : (s.transpose).ph = s.ph := rfl
@[simp] theorem State.transpose_osr : (s.transpose).osr = s.osr := rfl
@[simp] theorem State.transpose_dataPin : (s.transpose).dataPin = s.dataPin := rfl
@[simp] theorem State.transpose_clk : (s.transpose).clk = s.clk := rfl
@[simp] theorem State.transpose_stb : (s.transpose).stb = s.stb := rfl
@[simp] theorem State.transpose_prog : (s.transpose).prog = s.prog := rfl
@[simp] theorem State.transpose_turns : (s.transpose).turns = s.turns := rfl
@[simp] theorem State.transpose_tick : (s.transpose).tick = s.tick := rfl
@[simp] theorem State.transpose_now : (s.transpose).now = s.now := rfl
@[simp] theorem State.transpose_freeCount : (s.transpose).freeCount = s.freeCount := rfl

/-! A masked swap of both work words writes X, Y and T (R116). -/

@[simp] theorem State.swapXY_inp (dist : Nat) (mask : Word) : (s.swapXY dist mask).inp = s.inp := rfl
@[simp] theorem State.swapXY_pl (dist : Nat) (mask : Word) : (s.swapXY dist mask).pl = s.pl := rfl
@[simp] theorem State.swapXY_x (dist : Nat) (mask : Word) :
    (s.swapXY dist mask).x = maskedSwap s.x dist mask := rfl
@[simp] theorem State.swapXY_y (dist : Nat) (mask : Word) :
    (s.swapXY dist mask).y = maskedSwap s.y dist mask := rfl
@[simp] theorem State.swapXY_t (dist : Nat) (mask : Word) :
    (s.swapXY dist mask).t = swapTemp s.y dist mask := rfl
@[simp] theorem State.swapXY_pos (dist : Nat) (mask : Word) : (s.swapXY dist mask).pos = s.pos := rfl
@[simp] theorem State.swapXY_frame (dist : Nat) (mask : Word) : (s.swapXY dist mask).frame = s.frame := rfl
@[simp] theorem State.swapXY_buf (dist : Nat) (mask : Word) : (s.swapXY dist mask).buf = s.buf := rfl
@[simp] theorem State.swapXY_built (dist : Nat) (mask : Word) : (s.swapXY dist mask).built = s.built := rfl
@[simp] theorem State.swapXY_c (dist : Nat) (mask : Word) : (s.swapXY dist mask).c = s.c := rfl
@[simp] theorem State.swapXY_n (dist : Nat) (mask : Word) : (s.swapXY dist mask).n = s.n := rfl
@[simp] theorem State.swapXY_slot (dist : Nat) (mask : Word) : (s.swapXY dist mask).slot = s.slot := rfl
@[simp] theorem State.swapXY_fifoDepth (dist : Nat) (mask : Word) :
    (s.swapXY dist mask).fifoDepth = s.fifoDepth := rfl
@[simp] theorem State.swapXY_txs (dist : Nat) (mask : Word) : (s.swapXY dist mask).txs = s.txs := rfl
@[simp] theorem State.swapXY_idx (dist : Nat) (mask : Word) : (s.swapXY dist mask).idx = s.idx := rfl
@[simp] theorem State.swapXY_settleTimer (dist : Nat) (mask : Word) :
    (s.swapXY dist mask).settleTimer = s.settleTimer := rfl
@[simp] theorem State.swapXY_rejected (dist : Nat) (mask : Word) :
    (s.swapXY dist mask).rejected = s.rejected := rfl
@[simp] theorem State.swapXY_queue (dist : Nat) (mask : Word) : (s.swapXY dist mask).queue = s.queue := rfl
@[simp] theorem State.swapXY_en (dist : Nat) (mask : Word) : (s.swapXY dist mask).en = s.en := rfl
@[simp] theorem State.swapXY_st (dist : Nat) (mask : Word) : (s.swapXY dist mask).st = s.st := rfl
@[simp] theorem State.swapXY_cnt (dist : Nat) (mask : Word) : (s.swapXY dist mask).cnt = s.cnt := rfl
@[simp] theorem State.swapXY_ph (dist : Nat) (mask : Word) : (s.swapXY dist mask).ph = s.ph := rfl
@[simp] theorem State.swapXY_osr (dist : Nat) (mask : Word) : (s.swapXY dist mask).osr = s.osr := rfl
@[simp] theorem State.swapXY_dataPin (dist : Nat) (mask : Word) :
    (s.swapXY dist mask).dataPin = s.dataPin := rfl
@[simp] theorem State.swapXY_clk (dist : Nat) (mask : Word) : (s.swapXY dist mask).clk = s.clk := rfl
@[simp] theorem State.swapXY_stb (dist : Nat) (mask : Word) : (s.swapXY dist mask).stb = s.stb := rfl
@[simp] theorem State.swapXY_prog (dist : Nat) (mask : Word) : (s.swapXY dist mask).prog = s.prog := rfl
@[simp] theorem State.swapXY_turns (dist : Nat) (mask : Word) : (s.swapXY dist mask).turns = s.turns := rfl
@[simp] theorem State.swapXY_tick (dist : Nat) (mask : Word) : (s.swapXY dist mask).tick = s.tick := rfl
@[simp] theorem State.swapXY_now (dist : Nat) (mask : Word) : (s.swapXY dist mask).now = s.now := rfl
@[simp] theorem State.swapXY_freeCount (dist : Nat) (mask : Word) :
    (s.swapXY dist mask).freeCount = s.freeCount := rfl

/-! LANEPACK writes IN (R27). -/

@[simp] theorem State.packLanes_inp (i : Nat) (k : Fin 3) :
    (s.packLanes i k).inp = laneArray s.frame s.c i k := rfl
@[simp] theorem State.packLanes_pl (i : Nat) (k : Fin 3) : (s.packLanes i k).pl = s.pl := rfl
@[simp] theorem State.packLanes_x (i : Nat) (k : Fin 3) : (s.packLanes i k).x = s.x := rfl
@[simp] theorem State.packLanes_y (i : Nat) (k : Fin 3) : (s.packLanes i k).y = s.y := rfl
@[simp] theorem State.packLanes_t (i : Nat) (k : Fin 3) : (s.packLanes i k).t = s.t := rfl
@[simp] theorem State.packLanes_pos (i : Nat) (k : Fin 3) : (s.packLanes i k).pos = s.pos := rfl
@[simp] theorem State.packLanes_frame (i : Nat) (k : Fin 3) : (s.packLanes i k).frame = s.frame := rfl
@[simp] theorem State.packLanes_buf (i : Nat) (k : Fin 3) : (s.packLanes i k).buf = s.buf := rfl
@[simp] theorem State.packLanes_built (i : Nat) (k : Fin 3) : (s.packLanes i k).built = s.built := rfl
@[simp] theorem State.packLanes_c (i : Nat) (k : Fin 3) : (s.packLanes i k).c = s.c := rfl
@[simp] theorem State.packLanes_n (i : Nat) (k : Fin 3) : (s.packLanes i k).n = s.n := rfl
@[simp] theorem State.packLanes_slot (i : Nat) (k : Fin 3) : (s.packLanes i k).slot = s.slot := rfl
@[simp] theorem State.packLanes_fifoDepth (i : Nat) (k : Fin 3) :
    (s.packLanes i k).fifoDepth = s.fifoDepth := rfl
@[simp] theorem State.packLanes_txs (i : Nat) (k : Fin 3) : (s.packLanes i k).txs = s.txs := rfl
@[simp] theorem State.packLanes_idx (i : Nat) (k : Fin 3) : (s.packLanes i k).idx = s.idx := rfl
@[simp] theorem State.packLanes_settleTimer (i : Nat) (k : Fin 3) :
    (s.packLanes i k).settleTimer = s.settleTimer := rfl
@[simp] theorem State.packLanes_rejected (i : Nat) (k : Fin 3) :
    (s.packLanes i k).rejected = s.rejected := rfl
@[simp] theorem State.packLanes_queue (i : Nat) (k : Fin 3) : (s.packLanes i k).queue = s.queue := rfl
@[simp] theorem State.packLanes_en (i : Nat) (k : Fin 3) : (s.packLanes i k).en = s.en := rfl
@[simp] theorem State.packLanes_st (i : Nat) (k : Fin 3) : (s.packLanes i k).st = s.st := rfl
@[simp] theorem State.packLanes_cnt (i : Nat) (k : Fin 3) : (s.packLanes i k).cnt = s.cnt := rfl
@[simp] theorem State.packLanes_ph (i : Nat) (k : Fin 3) : (s.packLanes i k).ph = s.ph := rfl
@[simp] theorem State.packLanes_osr (i : Nat) (k : Fin 3) : (s.packLanes i k).osr = s.osr := rfl
@[simp] theorem State.packLanes_dataPin (i : Nat) (k : Fin 3) : (s.packLanes i k).dataPin = s.dataPin := rfl
@[simp] theorem State.packLanes_clk (i : Nat) (k : Fin 3) : (s.packLanes i k).clk = s.clk := rfl
@[simp] theorem State.packLanes_stb (i : Nat) (k : Fin 3) : (s.packLanes i k).stb = s.stb := rfl
@[simp] theorem State.packLanes_prog (i : Nat) (k : Fin 3) : (s.packLanes i k).prog = s.prog := rfl
@[simp] theorem State.packLanes_turns (i : Nat) (k : Fin 3) : (s.packLanes i k).turns = s.turns := rfl
@[simp] theorem State.packLanes_tick (i : Nat) (k : Fin 3) : (s.packLanes i k).tick = s.tick := rfl
@[simp] theorem State.packLanes_now (i : Nat) (k : Fin 3) : (s.packLanes i k).now = s.now := rfl
@[simp] theorem State.packLanes_freeCount (i : Nat) (k : Fin 3) :
    (s.packLanes i k).freeCount = s.freeCount := rfl

/-! EMITWORD writes the output buffer (R27). -/

@[simp] theorem State.emitWord_inp (i : Nat) (k : Fin 3) (p : Fin 8) : (s.emitWord i k p).inp = s.inp := rfl
@[simp] theorem State.emitWord_pl (i : Nat) (k : Fin 3) (p : Fin 8) : (s.emitWord i k p).pl = s.pl := rfl
@[simp] theorem State.emitWord_x (i : Nat) (k : Fin 3) (p : Fin 8) : (s.emitWord i k p).x = s.x := rfl
@[simp] theorem State.emitWord_y (i : Nat) (k : Fin 3) (p : Fin 8) : (s.emitWord i k p).y = s.y := rfl
@[simp] theorem State.emitWord_t (i : Nat) (k : Fin 3) (p : Fin 8) : (s.emitWord i k p).t = s.t := rfl
@[simp] theorem State.emitWord_pos (i : Nat) (k : Fin 3) (p : Fin 8) : (s.emitWord i k p).pos = s.pos := rfl
@[simp] theorem State.emitWord_frame (i : Nat) (k : Fin 3) (p : Fin 8) :
    (s.emitWord i k p).frame = s.frame := rfl
@[simp] theorem State.emitWord_buf (i : Nat) (k : Fin 3) (p : Fin 8) :
    (s.emitWord i k p).buf = Memory.write s.buf (bufIndex i k p) (wordOfPlane (entry s.pl p)) := rfl
@[simp] theorem State.emitWord_built (i : Nat) (k : Fin 3) (p : Fin 8) :
    (s.emitWord i k p).built = s.built := rfl
@[simp] theorem State.emitWord_c (i : Nat) (k : Fin 3) (p : Fin 8) : (s.emitWord i k p).c = s.c := rfl
@[simp] theorem State.emitWord_n (i : Nat) (k : Fin 3) (p : Fin 8) : (s.emitWord i k p).n = s.n := rfl
@[simp] theorem State.emitWord_slot (i : Nat) (k : Fin 3) (p : Fin 8) :
    (s.emitWord i k p).slot = s.slot := rfl
@[simp] theorem State.emitWord_fifoDepth (i : Nat) (k : Fin 3) (p : Fin 8) :
    (s.emitWord i k p).fifoDepth = s.fifoDepth := rfl
@[simp] theorem State.emitWord_txs (i : Nat) (k : Fin 3) (p : Fin 8) : (s.emitWord i k p).txs = s.txs := rfl
@[simp] theorem State.emitWord_idx (i : Nat) (k : Fin 3) (p : Fin 8) : (s.emitWord i k p).idx = s.idx := rfl
@[simp] theorem State.emitWord_settleTimer (i : Nat) (k : Fin 3) (p : Fin 8) :
    (s.emitWord i k p).settleTimer = s.settleTimer := rfl
@[simp] theorem State.emitWord_rejected (i : Nat) (k : Fin 3) (p : Fin 8) :
    (s.emitWord i k p).rejected = s.rejected := rfl
@[simp] theorem State.emitWord_queue (i : Nat) (k : Fin 3) (p : Fin 8) :
    (s.emitWord i k p).queue = s.queue := rfl
@[simp] theorem State.emitWord_en (i : Nat) (k : Fin 3) (p : Fin 8) : (s.emitWord i k p).en = s.en := rfl
@[simp] theorem State.emitWord_st (i : Nat) (k : Fin 3) (p : Fin 8) : (s.emitWord i k p).st = s.st := rfl
@[simp] theorem State.emitWord_cnt (i : Nat) (k : Fin 3) (p : Fin 8) : (s.emitWord i k p).cnt = s.cnt := rfl
@[simp] theorem State.emitWord_ph (i : Nat) (k : Fin 3) (p : Fin 8) : (s.emitWord i k p).ph = s.ph := rfl
@[simp] theorem State.emitWord_osr (i : Nat) (k : Fin 3) (p : Fin 8) : (s.emitWord i k p).osr = s.osr := rfl
@[simp] theorem State.emitWord_dataPin (i : Nat) (k : Fin 3) (p : Fin 8) :
    (s.emitWord i k p).dataPin = s.dataPin := rfl
@[simp] theorem State.emitWord_clk (i : Nat) (k : Fin 3) (p : Fin 8) : (s.emitWord i k p).clk = s.clk := rfl
@[simp] theorem State.emitWord_stb (i : Nat) (k : Fin 3) (p : Fin 8) : (s.emitWord i k p).stb = s.stb := rfl
@[simp] theorem State.emitWord_prog (i : Nat) (k : Fin 3) (p : Fin 8) :
    (s.emitWord i k p).prog = s.prog := rfl
@[simp] theorem State.emitWord_turns (i : Nat) (k : Fin 3) (p : Fin 8) :
    (s.emitWord i k p).turns = s.turns := rfl
@[simp] theorem State.emitWord_tick (i : Nat) (k : Fin 3) (p : Fin 8) :
    (s.emitWord i k p).tick = s.tick := rfl
@[simp] theorem State.emitWord_now (i : Nat) (k : Fin 3) (p : Fin 8) : (s.emitWord i k p).now = s.now := rfl
@[simp] theorem State.emitWord_freeCount (i : Nat) (k : Fin 3) (p : Fin 8) :
    (s.emitWord i k p).freeCount = s.freeCount := rfl

/-! An EMITWORD of BUILD writes the output buffer and the builder position (R27). -/

@[simp] theorem State.buildWord_inp (i : Nat) (k : Fin 3) (p : Fin 8) : (s.buildWord i k p).inp = s.inp := rfl
@[simp] theorem State.buildWord_pl (i : Nat) (k : Fin 3) (p : Fin 8) : (s.buildWord i k p).pl = s.pl := rfl
@[simp] theorem State.buildWord_x (i : Nat) (k : Fin 3) (p : Fin 8) : (s.buildWord i k p).x = s.x := rfl
@[simp] theorem State.buildWord_y (i : Nat) (k : Fin 3) (p : Fin 8) : (s.buildWord i k p).y = s.y := rfl
@[simp] theorem State.buildWord_t (i : Nat) (k : Fin 3) (p : Fin 8) : (s.buildWord i k p).t = s.t := rfl
@[simp] theorem State.buildWord_pos (i : Nat) (k : Fin 3) (p : Fin 8) :
    (s.buildWord i k p).pos = some ⟨i, k, p⟩ := rfl
@[simp] theorem State.buildWord_frame (i : Nat) (k : Fin 3) (p : Fin 8) :
    (s.buildWord i k p).frame = s.frame := rfl
@[simp] theorem State.buildWord_buf (i : Nat) (k : Fin 3) (p : Fin 8) :
    (s.buildWord i k p).buf = Memory.write s.buf (bufIndex i k p) (wordOfPlane (entry s.pl p)) := rfl
@[simp] theorem State.buildWord_built (i : Nat) (k : Fin 3) (p : Fin 8) :
    (s.buildWord i k p).built = s.built := rfl
@[simp] theorem State.buildWord_c (i : Nat) (k : Fin 3) (p : Fin 8) : (s.buildWord i k p).c = s.c := rfl
@[simp] theorem State.buildWord_n (i : Nat) (k : Fin 3) (p : Fin 8) : (s.buildWord i k p).n = s.n := rfl
@[simp] theorem State.buildWord_slot (i : Nat) (k : Fin 3) (p : Fin 8) :
    (s.buildWord i k p).slot = s.slot := rfl
@[simp] theorem State.buildWord_fifoDepth (i : Nat) (k : Fin 3) (p : Fin 8) :
    (s.buildWord i k p).fifoDepth = s.fifoDepth := rfl
@[simp] theorem State.buildWord_txs (i : Nat) (k : Fin 3) (p : Fin 8) : (s.buildWord i k p).txs = s.txs := rfl
@[simp] theorem State.buildWord_idx (i : Nat) (k : Fin 3) (p : Fin 8) : (s.buildWord i k p).idx = s.idx := rfl
@[simp] theorem State.buildWord_settleTimer (i : Nat) (k : Fin 3) (p : Fin 8) :
    (s.buildWord i k p).settleTimer = s.settleTimer := rfl
@[simp] theorem State.buildWord_rejected (i : Nat) (k : Fin 3) (p : Fin 8) :
    (s.buildWord i k p).rejected = s.rejected := rfl
@[simp] theorem State.buildWord_queue (i : Nat) (k : Fin 3) (p : Fin 8) :
    (s.buildWord i k p).queue = s.queue := rfl
@[simp] theorem State.buildWord_en (i : Nat) (k : Fin 3) (p : Fin 8) : (s.buildWord i k p).en = s.en := rfl
@[simp] theorem State.buildWord_st (i : Nat) (k : Fin 3) (p : Fin 8) : (s.buildWord i k p).st = s.st := rfl
@[simp] theorem State.buildWord_cnt (i : Nat) (k : Fin 3) (p : Fin 8) : (s.buildWord i k p).cnt = s.cnt := rfl
@[simp] theorem State.buildWord_ph (i : Nat) (k : Fin 3) (p : Fin 8) : (s.buildWord i k p).ph = s.ph := rfl
@[simp] theorem State.buildWord_osr (i : Nat) (k : Fin 3) (p : Fin 8) : (s.buildWord i k p).osr = s.osr := rfl
@[simp] theorem State.buildWord_dataPin (i : Nat) (k : Fin 3) (p : Fin 8) :
    (s.buildWord i k p).dataPin = s.dataPin := rfl
@[simp] theorem State.buildWord_clk (i : Nat) (k : Fin 3) (p : Fin 8) : (s.buildWord i k p).clk = s.clk := rfl
@[simp] theorem State.buildWord_stb (i : Nat) (k : Fin 3) (p : Fin 8) : (s.buildWord i k p).stb = s.stb := rfl
@[simp] theorem State.buildWord_prog (i : Nat) (k : Fin 3) (p : Fin 8) :
    (s.buildWord i k p).prog = s.prog := rfl
@[simp] theorem State.buildWord_turns (i : Nat) (k : Fin 3) (p : Fin 8) :
    (s.buildWord i k p).turns = s.turns := rfl
@[simp] theorem State.buildWord_tick (i : Nat) (k : Fin 3) (p : Fin 8) :
    (s.buildWord i k p).tick = s.tick := rfl
@[simp] theorem State.buildWord_now (i : Nat) (k : Fin 3) (p : Fin 8) : (s.buildWord i k p).now = s.now := rfl
@[simp] theorem State.buildWord_freeCount (i : Nat) (k : Fin 3) (p : Fin 8) :
    (s.buildWord i k p).freeCount = s.freeCount := rfl

/-! A push writes the queue (R65). -/

@[simp] theorem State.fifoPush_inp (v : Word) : (s.fifoPush v).inp = s.inp := rfl
@[simp] theorem State.fifoPush_pl (v : Word) : (s.fifoPush v).pl = s.pl := rfl
@[simp] theorem State.fifoPush_x (v : Word) : (s.fifoPush v).x = s.x := rfl
@[simp] theorem State.fifoPush_y (v : Word) : (s.fifoPush v).y = s.y := rfl
@[simp] theorem State.fifoPush_t (v : Word) : (s.fifoPush v).t = s.t := rfl
@[simp] theorem State.fifoPush_pos (v : Word) : (s.fifoPush v).pos = s.pos := rfl
@[simp] theorem State.fifoPush_frame (v : Word) : (s.fifoPush v).frame = s.frame := rfl
@[simp] theorem State.fifoPush_buf (v : Word) : (s.fifoPush v).buf = s.buf := rfl
@[simp] theorem State.fifoPush_built (v : Word) : (s.fifoPush v).built = s.built := rfl
@[simp] theorem State.fifoPush_c (v : Word) : (s.fifoPush v).c = s.c := rfl
@[simp] theorem State.fifoPush_n (v : Word) : (s.fifoPush v).n = s.n := rfl
@[simp] theorem State.fifoPush_slot (v : Word) : (s.fifoPush v).slot = s.slot := rfl
@[simp] theorem State.fifoPush_fifoDepth (v : Word) : (s.fifoPush v).fifoDepth = s.fifoDepth := rfl
@[simp] theorem State.fifoPush_txs (v : Word) : (s.fifoPush v).txs = s.txs := rfl
@[simp] theorem State.fifoPush_idx (v : Word) : (s.fifoPush v).idx = s.idx := rfl
@[simp] theorem State.fifoPush_settleTimer (v : Word) : (s.fifoPush v).settleTimer = s.settleTimer := rfl
@[simp] theorem State.fifoPush_rejected (v : Word) : (s.fifoPush v).rejected = s.rejected := rfl
@[simp] theorem State.fifoPush_queue (v : Word) : (s.fifoPush v).queue = s.queue ++ [v] := rfl
@[simp] theorem State.fifoPush_en (v : Word) : (s.fifoPush v).en = s.en := rfl
@[simp] theorem State.fifoPush_st (v : Word) : (s.fifoPush v).st = s.st := rfl
@[simp] theorem State.fifoPush_cnt (v : Word) : (s.fifoPush v).cnt = s.cnt := rfl
@[simp] theorem State.fifoPush_ph (v : Word) : (s.fifoPush v).ph = s.ph := rfl
@[simp] theorem State.fifoPush_osr (v : Word) : (s.fifoPush v).osr = s.osr := rfl
@[simp] theorem State.fifoPush_dataPin (v : Word) : (s.fifoPush v).dataPin = s.dataPin := rfl
@[simp] theorem State.fifoPush_clk (v : Word) : (s.fifoPush v).clk = s.clk := rfl
@[simp] theorem State.fifoPush_stb (v : Word) : (s.fifoPush v).stb = s.stb := rfl
@[simp] theorem State.fifoPush_prog (v : Word) : (s.fifoPush v).prog = s.prog := rfl
@[simp] theorem State.fifoPush_turns (v : Word) : (s.fifoPush v).turns = s.turns := rfl
@[simp] theorem State.fifoPush_tick (v : Word) : (s.fifoPush v).tick = s.tick := rfl
@[simp] theorem State.fifoPush_now (v : Word) : (s.fifoPush v).now = s.now := rfl
@[simp] theorem State.fifoPush_freeCount (v : Word) : (s.fifoPush v).freeCount = s.freeCount := rfl

/-! ConstructReject writes its record and nothing else (R211). -/

@[simp] theorem State.takeConstructReject_inp (lanes : Nat) : (s.takeConstructReject lanes).inp = s.inp := rfl
@[simp] theorem State.takeConstructReject_pl (lanes : Nat) : (s.takeConstructReject lanes).pl = s.pl := rfl
@[simp] theorem State.takeConstructReject_x (lanes : Nat) : (s.takeConstructReject lanes).x = s.x := rfl
@[simp] theorem State.takeConstructReject_y (lanes : Nat) : (s.takeConstructReject lanes).y = s.y := rfl
@[simp] theorem State.takeConstructReject_t (lanes : Nat) : (s.takeConstructReject lanes).t = s.t := rfl
@[simp] theorem State.takeConstructReject_pos (lanes : Nat) : (s.takeConstructReject lanes).pos = s.pos := rfl
@[simp] theorem State.takeConstructReject_frame (lanes : Nat) :
    (s.takeConstructReject lanes).frame = s.frame := rfl
@[simp] theorem State.takeConstructReject_buf (lanes : Nat) : (s.takeConstructReject lanes).buf = s.buf := rfl
@[simp] theorem State.takeConstructReject_built (lanes : Nat) :
    (s.takeConstructReject lanes).built = s.built := rfl
@[simp] theorem State.takeConstructReject_c (lanes : Nat) : (s.takeConstructReject lanes).c = s.c := rfl
@[simp] theorem State.takeConstructReject_n (lanes : Nat) : (s.takeConstructReject lanes).n = s.n := rfl
@[simp] theorem State.takeConstructReject_slot (lanes : Nat) :
    (s.takeConstructReject lanes).slot = s.slot := rfl
@[simp] theorem State.takeConstructReject_fifoDepth (lanes : Nat) :
    (s.takeConstructReject lanes).fifoDepth = s.fifoDepth := rfl
@[simp] theorem State.takeConstructReject_txs (lanes : Nat) : (s.takeConstructReject lanes).txs = s.txs := rfl
@[simp] theorem State.takeConstructReject_idx (lanes : Nat) : (s.takeConstructReject lanes).idx = s.idx := rfl
@[simp] theorem State.takeConstructReject_settleTimer (lanes : Nat) :
    (s.takeConstructReject lanes).settleTimer = s.settleTimer := rfl
@[simp] theorem State.takeConstructReject_rejected (lanes : Nat) :
    (s.takeConstructReject lanes).rejected = some lanes := rfl
@[simp] theorem State.takeConstructReject_queue (lanes : Nat) :
    (s.takeConstructReject lanes).queue = s.queue := rfl
@[simp] theorem State.takeConstructReject_en (lanes : Nat) : (s.takeConstructReject lanes).en = s.en := rfl
@[simp] theorem State.takeConstructReject_st (lanes : Nat) : (s.takeConstructReject lanes).st = s.st := rfl
@[simp] theorem State.takeConstructReject_cnt (lanes : Nat) : (s.takeConstructReject lanes).cnt = s.cnt := rfl
@[simp] theorem State.takeConstructReject_ph (lanes : Nat) : (s.takeConstructReject lanes).ph = s.ph := rfl
@[simp] theorem State.takeConstructReject_osr (lanes : Nat) : (s.takeConstructReject lanes).osr = s.osr := rfl
@[simp] theorem State.takeConstructReject_dataPin (lanes : Nat) :
    (s.takeConstructReject lanes).dataPin = s.dataPin := rfl
@[simp] theorem State.takeConstructReject_clk (lanes : Nat) : (s.takeConstructReject lanes).clk = s.clk := rfl
@[simp] theorem State.takeConstructReject_stb (lanes : Nat) : (s.takeConstructReject lanes).stb = s.stb := rfl
@[simp] theorem State.takeConstructReject_prog (lanes : Nat) :
    (s.takeConstructReject lanes).prog = s.prog := rfl
@[simp] theorem State.takeConstructReject_turns (lanes : Nat) :
    (s.takeConstructReject lanes).turns = s.turns := rfl
@[simp] theorem State.takeConstructReject_tick (lanes : Nat) :
    (s.takeConstructReject lanes).tick = s.tick := rfl
@[simp] theorem State.takeConstructReject_now (lanes : Nat) : (s.takeConstructReject lanes).now = s.now := rfl
@[simp] theorem State.takeConstructReject_freeCount (lanes : Nat) :
    (s.takeConstructReject lanes).freeCount = s.freeCount := rfl

/-! Clearing the record of a rejection (R220). -/

@[simp] theorem State.clearReject_inp : (s.clearReject).inp = s.inp := rfl
@[simp] theorem State.clearReject_pl : (s.clearReject).pl = s.pl := rfl
@[simp] theorem State.clearReject_x : (s.clearReject).x = s.x := rfl
@[simp] theorem State.clearReject_y : (s.clearReject).y = s.y := rfl
@[simp] theorem State.clearReject_t : (s.clearReject).t = s.t := rfl
@[simp] theorem State.clearReject_pos : (s.clearReject).pos = s.pos := rfl
@[simp] theorem State.clearReject_frame : (s.clearReject).frame = s.frame := rfl
@[simp] theorem State.clearReject_buf : (s.clearReject).buf = s.buf := rfl
@[simp] theorem State.clearReject_built : (s.clearReject).built = s.built := rfl
@[simp] theorem State.clearReject_c : (s.clearReject).c = s.c := rfl
@[simp] theorem State.clearReject_n : (s.clearReject).n = s.n := rfl
@[simp] theorem State.clearReject_slot : (s.clearReject).slot = s.slot := rfl
@[simp] theorem State.clearReject_fifoDepth : (s.clearReject).fifoDepth = s.fifoDepth := rfl
@[simp] theorem State.clearReject_txs : (s.clearReject).txs = s.txs := rfl
@[simp] theorem State.clearReject_idx : (s.clearReject).idx = s.idx := rfl
@[simp] theorem State.clearReject_settleTimer : (s.clearReject).settleTimer = s.settleTimer := rfl
@[simp] theorem State.clearReject_rejected : (s.clearReject).rejected = none := rfl
@[simp] theorem State.clearReject_queue : (s.clearReject).queue = s.queue := rfl
@[simp] theorem State.clearReject_en : (s.clearReject).en = s.en := rfl
@[simp] theorem State.clearReject_st : (s.clearReject).st = s.st := rfl
@[simp] theorem State.clearReject_cnt : (s.clearReject).cnt = s.cnt := rfl
@[simp] theorem State.clearReject_ph : (s.clearReject).ph = s.ph := rfl
@[simp] theorem State.clearReject_osr : (s.clearReject).osr = s.osr := rfl
@[simp] theorem State.clearReject_dataPin : (s.clearReject).dataPin = s.dataPin := rfl
@[simp] theorem State.clearReject_clk : (s.clearReject).clk = s.clk := rfl
@[simp] theorem State.clearReject_stb : (s.clearReject).stb = s.stb := rfl
@[simp] theorem State.clearReject_prog : (s.clearReject).prog = s.prog := rfl
@[simp] theorem State.clearReject_turns : (s.clearReject).turns = s.turns := rfl
@[simp] theorem State.clearReject_tick : (s.clearReject).tick = s.tick := rfl
@[simp] theorem State.clearReject_now : (s.clearReject).now = s.now := rfl
@[simp] theorem State.clearReject_freeCount : (s.clearReject).freeCount = s.freeCount := rfl

/-! CONSTRUCT writes every register of the instance (R55, R190) and keeps the caller's frame and the model's own inputs. -/

@[simp] theorem State.construct_inp (lanes leds slotId : Nat) :
    (s.construct lanes leds slotId).inp = Config.freeBytes s.freeCount := rfl
@[simp] theorem State.construct_pl (lanes leds slotId : Nat) :
    (s.construct lanes leds slotId).pl = Config.freeBytes (s.freeCount + 1) := rfl
@[simp] theorem State.construct_x (lanes leds slotId : Nat) :
    (s.construct lanes leds slotId).x = Config.freeWord s.freeCount := rfl
@[simp] theorem State.construct_y (lanes leds slotId : Nat) :
    (s.construct lanes leds slotId).y = Config.freeWord (s.freeCount + 1) := rfl
@[simp] theorem State.construct_t (lanes leds slotId : Nat) :
    (s.construct lanes leds slotId).t = Config.freeWord (s.freeCount + 2) := rfl
@[simp] theorem State.construct_pos (lanes leds slotId : Nat) :
    (s.construct lanes leds slotId).pos = none := rfl
@[simp] theorem State.construct_frame (lanes leds slotId : Nat) :
    (s.construct lanes leds slotId).frame = s.frame := rfl
@[simp] theorem State.construct_buf (lanes leds slotId : Nat) :
    (s.construct lanes leds slotId).buf = [] := rfl
@[simp] theorem State.construct_built (lanes leds slotId : Nat) :
    (s.construct lanes leds slotId).built = true := rfl
@[simp] theorem State.construct_c (lanes leds slotId : Nat) : (s.construct lanes leds slotId).c = lanes := rfl
@[simp] theorem State.construct_n (lanes leds slotId : Nat) : (s.construct lanes leds slotId).n = leds := rfl
@[simp] theorem State.construct_slot (lanes leds slotId : Nat) :
    (s.construct lanes leds slotId).slot = slotId := rfl
@[simp] theorem State.construct_fifoDepth (lanes leds slotId : Nat) :
    (s.construct lanes leds slotId).fifoDepth = Config.fifoDepthOf s.freeCount := rfl
@[simp] theorem State.construct_txs (lanes leds slotId : Nat) :
    (s.construct lanes leds slotId).txs = .idle := rfl
@[simp] theorem State.construct_idx (lanes leds slotId : Nat) : (s.construct lanes leds slotId).idx = 0 := rfl
@[simp] theorem State.construct_settleTimer (lanes leds slotId : Nat) :
    (s.construct lanes leds slotId).settleTimer = none := rfl
@[simp] theorem State.construct_rejected (lanes leds slotId : Nat) :
    (s.construct lanes leds slotId).rejected = none := rfl
@[simp] theorem State.construct_queue (lanes leds slotId : Nat) :
    (s.construct lanes leds slotId).queue = [] := rfl
@[simp] theorem State.construct_en (lanes leds slotId : Nat) :
    (s.construct lanes leds slotId).en = false := rfl
@[simp] theorem State.construct_st (lanes leds slotId : Nat) :
    (s.construct lanes leds slotId).st = .header := rfl
@[simp] theorem State.construct_cnt (lanes leds slotId : Nat) : (s.construct lanes leds slotId).cnt = 0 := rfl
@[simp] theorem State.construct_ph (lanes leds slotId : Nat) :
    (s.construct lanes leds slotId).ph = .low := rfl
@[simp] theorem State.construct_osr (lanes leds slotId : Nat) :
    (s.construct lanes leds slotId).osr = Config.freeWord (s.freeCount + 3) := rfl
@[simp] theorem State.construct_dataPin (lanes leds slotId : Nat) :
    (s.construct lanes leds slotId).dataPin = false := rfl
@[simp] theorem State.construct_clk (lanes leds slotId : Nat) :
    (s.construct lanes leds slotId).clk = false := rfl
@[simp] theorem State.construct_stb (lanes leds slotId : Nat) :
    (s.construct lanes leds slotId).stb = false := rfl
@[simp] theorem State.construct_prog (lanes leds slotId : Nat) :
    (s.construct lanes leds slotId).prog = s.prog := rfl
@[simp] theorem State.construct_turns (lanes leds slotId : Nat) :
    (s.construct lanes leds slotId).turns = s.turns := rfl
@[simp] theorem State.construct_tick (lanes leds slotId : Nat) :
    (s.construct lanes leds slotId).tick = s.tick := rfl
@[simp] theorem State.construct_now (lanes leds slotId : Nat) :
    (s.construct lanes leds slotId).now = s.now := rfl
@[simp] theorem State.construct_freeCount (lanes leds slotId : Nat) :
    (s.construct lanes leds slotId).freeCount = s.freeCount + 4 := rfl

end Sys2Proof.Machine
end

