-- ==== Sys2Proof/Laws/Builder.lean ====
section
/-! SUPPORT. What BUILD does, loop by loop: the encoder registers it writes, and the words it lists in order. -/

namespace Sys2Proof.Machine

/-- The word EMITWORD makes of one plane of one LED and channel (R140, R120, R142). -/
def chanWord (f : Frame) (c i : Nat) (k : Fin 3) (p : Fin 8) : Word :=
  wordOfPlane (entry (transposeBytes (laneArray f c i k)) p)

/-- The first `m` words of the buffer of a frame, as BUILD lists them. -/
def bufferPrefix (f : Frame) (c m : Nat) : Memory :=
  (List.range m).map fun a => (a, frameWord f c a)

/-- The body of BUILD for one LED and channel, at once (R144). -/
theorem State.buildChannel_eq (s : State) (i : Nat) (k : Fin 3) :
    s.buildChannel i k = { s with
      inp := laneArray s.frame s.c i k
      pl := transposeBytes (laneArray s.frame s.c i k)
      pos := some { i := i, k := k, p := 0 }
      buf := planeOrder.foldl
        (fun m p => Memory.write m (bufIndex i k p) (chanWord s.frame s.c i k p)) s.buf } := rfl

/-- The three channels of one LED (R144). -/
theorem State.buildLed_eq (s : State) (i : Nat) :
    s.buildLed i = ((s.buildChannel i 0).buildChannel i 1).buildChannel i 2 := rfl

/-- The closed form's word is the word the encoder makes (R143). -/
theorem frameWord_eq_chanWord (f : Frame) (c a : Nat) :
    frameWord f c a = chanWord f c (indexPos a).i (indexPos a).k (indexPos a).p := by
  simp only [frameWord, chanWord]
  congr 1
  refine byte_ext fun b => ?_
  rw [byteOfBits_bit, transposeBytes_bit, laneArray_entry]
  simp only [channelBit]
  by_cases h : 7 - b.val < c
  · simp only [h, decide_true, Bool.true_and, if_true]
    cases frameRead f (7 - b.val) (indexPos a).i (channelOf (indexPos a).k) <;> simp
  · simp [h]

/-- A prefix of the buffer is in canonical form. -/
theorem bufferPrefix_wf (f : Frame) (c m : Nat) : Memory.wf (bufferPrefix f c m) = true := by
  have h : ∀ m lo, Memory.risesFrom lo
      ((List.range' lo m).map fun a => (a, frameWord f c a)) = true := by
    intro m
    induction m with
    | zero => intro lo; rfl
    | succ m ih => intro lo; simp [List.range'_succ, Memory.risesFrom, ih]
  simpa [bufferPrefix, Memory.wf, List.range_eq_range'] using h m 0

theorem bufferPrefix_succ (f : Frame) (c m : Nat) :
    bufferPrefix f c (m + 1) = bufferPrefix f c m ++ [(m, frameWord f c m)] := by
  simp [bufferPrefix, List.range_succ]

/-- What a prefix of the buffer holds at each index. -/
theorem bufferPrefix_read (f : Frame) (c m a : Nat) :
    Memory.read (bufferPrefix f c m) a = if a < m then some (frameWord f c a) else none := by
  have h : ∀ m lo, Memory.read ((List.range' lo m).map fun a => (a, frameWord f c a)) a =
      if lo ≤ a ∧ a < lo + m then some (frameWord f c a) else none := by
    intro m
    induction m with
    | zero => intro lo; simp
    | succ m ih =>
      intro lo
      simp only [List.range'_succ, List.map_cons, Memory.read_cons, ih]
      by_cases ha : a = lo
      · subst ha; simp
      · simp only [ha, if_false]; congr 1; simp; omega
  simpa [bufferPrefix, List.range_eq_range'] using h m 0

/-- Writing the next word extends a prefix of the buffer by it. -/
theorem bufferPrefix_write (f : Frame) (c m : Nat) :
    Memory.write (bufferPrefix f c m) m (frameWord f c m) = bufferPrefix f c (m + 1) := by
  rw [Memory.write_append (bufferPrefix_wf f c m), bufferPrefix_succ]
  intro e he
  simp only [bufferPrefix, List.mem_map, List.mem_range] at he
  obtain ⟨a, ha, rfl⟩ := he
  exact ha

/-- One EMITWORD of the build, at the index that comes next. -/
theorem bufferPrefix_emit (f : Frame) (c i : Nat) (k : Fin 3) (p : Fin 8) {m : Nat}
    (hm : m = 24 * i + 8 * k.val + (7 - p.val)) :
    Memory.write (bufferPrefix f c m) (bufIndex i k p) (chanWord f c i k p) =
      bufferPrefix f c (m + 1) := by
  have h : bufIndex i k p = m := by rw [bufIndex_eq, hm]
  have hw : chanWord f c i k p = frameWord f c m := by
    rw [frameWord_eq_chanWord, ← h, indexPos_bufIndex]
  rw [h, hw, bufferPrefix_write]

/-- The eight words of one LED and channel. -/
theorem bufferPrefix_channel (f : Frame) (c i : Nat) (k : Fin 3) :
    planeOrder.foldl (fun m p => Memory.write m (bufIndex i k p) (chanWord f c i k p))
      (bufferPrefix f c (24 * i + 8 * k.val)) = bufferPrefix f c (24 * i + 8 * k.val + 8) := by
  simp only [planeOrder, List.foldl_cons, List.foldl_nil]
  have emit (p : Fin 8) (d : Nat) (hd : d = 7 - p.val) :
      Memory.write (bufferPrefix f c (24 * i + 8 * k.val + d)) (bufIndex i k p)
        (chanWord f c i k p) = bufferPrefix f c (24 * i + 8 * k.val + (d + 1)) :=
    bufferPrefix_emit f c i k p (by rw [hd])
  rw [← Nat.add_zero (24 * i + 8 * k.val), emit 7 0 rfl, emit 6 1 rfl, emit 5 2 rfl, emit 4 3 rfl,
    emit 3 4 rfl, emit 2 5 rfl, emit 1 6 rfl, emit 0 7 rfl]

/-- `t` differs from `s` at most in what the builder writes: IN, PL, the buffer and the builder position. -/
def sameButBuild (s t : State) : Prop :=
  t = { s with inp := t.inp, pl := t.pl, buf := t.buf, pos := t.pos }

/-- What BUILD's middle loop does for one LED. -/
theorem State.buildLed_spec (s : State) (i : Nat)
    (h : s.buf = bufferPrefix s.frame s.c (24 * i)) :
    sameButBuild s (s.buildLed i) ∧
      (s.buildLed i).buf = bufferPrefix s.frame s.c (24 * (i + 1)) := by
  have h0 := bufferPrefix_channel s.frame s.c i 0
  have h1 := bufferPrefix_channel s.frame s.c i 1
  have h2 := bufferPrefix_channel s.frame s.c i 2
  refine ⟨by rw [s.buildLed_eq]; unfold sameButBuild; simp only [State.buildChannel_eq], ?_⟩
  simp only [s.buildLed_eq, State.buildChannel_eq, h]
  simp only [Fin.isValue, Fin.val_zero, Fin.val_one, Fin.val_two, Nat.mul_zero, Nat.mul_one,
    Nat.add_zero] at h0 h1 h2
  rw [h0, h1, show 24 * i + 8 + 8 = 24 * i + 8 * 2 from by omega, h2]
  congr 1

/-- Everything BUILD does: it writes the encoder registers it uses, leaves no builder position, and lists the
24·N words of the closed form in order; every other field stays. -/
theorem State.buildAll_spec (s : State) :
    sameButBuild s s.buildAll ∧ s.buildAll.pos = none ∧
      s.buildAll.buf = bufferPrefix s.frame s.c (24 * s.n) := by
  have h : ∀ n, sameButBuild s ((List.range n).foldl State.buildLed { s with buf := [] }) ∧
      ((List.range n).foldl State.buildLed { s with buf := [] }).buf =
        bufferPrefix s.frame s.c (24 * n) := by
    intro n
    induction n with
    | zero => exact ⟨rfl, rfl⟩
    | succ n ih =>
      simp only [List.range_succ, List.foldl_append, List.foldl_cons, List.foldl_nil]
      generalize (List.range n).foldl State.buildLed { s with buf := [] } = r at *
      obtain ⟨h1, h2⟩ := ih
      have hf : r.frame = s.frame := by rw [h1]
      have hc : r.c = s.c := by rw [h1]
      obtain ⟨h3, h4⟩ := r.buildLed_spec n (by rw [hf, hc]; exact h2)
      refine ⟨?_, by rw [h4, hf, hc]⟩
      unfold sameButBuild at *
      rw [h3, h1]
  obtain ⟨h1, h2⟩ := h s.n
  refine ⟨?_, rfl, h2⟩
  unfold sameButBuild at *
  simp only [State.buildAll]
  rw [h1]

end Sys2Proof.Machine
end

