-- ==== Sys2Proof/Laws/Machine.lean ====
section
/-! SUPPORT. What each operation, each fetch and each step can do, said once: if it answers a next state, then which. -/

namespace Sys2Proof.Machine

variable {s t : State}

/-! ## Conditions -/

theorem State.psmAt_iff {st : PsmState} : s.psmAt st = true ↔ s.en = true ∧ s.st = st := by
  simp [State.psmAt]

theorem State.feederEnabled_iff : s.feederEnabled = true ↔
    s.txs = .feed ∧ s.idx < s.bufLen ∧ s.queue.length < s.fifoDepth := by
  simp [State.feederEnabled, State.feeding, State.full, and_assoc]

theorem State.drainDue_iff : s.drainDue = true ↔ s.txs = .feed ∧ s.idx = s.bufLen := by
  simp [State.drainDue, State.drained]

theorem State.settleEnabled_iff : s.settleEnabled = true ↔
    s.txs = .settle ∧ ∃ d, s.settleTimer = some d ∧ d + 55000 ≤ s.now := by
  simp only [State.settleEnabled, State.settleExpired, Bool.and_eq_true, beq_iff_eq]
  cases s.settleTimer with
  | none => simp
  | some d =>
    have hd : Config.settleUs * Config.nsPerUs = 55000 := rfl
    simp only [decide_eq_true_iff, Option.some.injEq, exists_eq_left', hd]

theorem State.quiescent_iff : s.quiescent = true ↔
    s.txs = .idle ∧ s.queue = [] ∧ (s.st = .pull ∨ s.en = false) := by
  simp [State.quiescent, State.busy, State.empty, and_assoc]

/-! ## The operations -/

theorem execLanepack_next {i : Nat} {k : Fin 3} (h : execLanepack i k s = .next t) :
    i < s.n ∧ frameFits s.frame s.c s.n = true ∧ t = s.packLanes i k := by
  simp only [execLanepack] at h
  split at h
  · next hi => cases h; exact ⟨hi.1, hi.2, rfl⟩
  · cases h

theorem execEmitword_next {i : Nat} {k : Fin 3} {p : Fin 8} (h : execEmitword i k p s = .next t) :
    s.txs = .idle ∧ i < s.n ∧ t = s.emitWord i k p := by
  simp only [execEmitword] at h
  split at h
  · cases h
  · next hx =>
    split at h
    · next hi => cases h; exact ⟨by simpa using hx, hi, rfl⟩
    · cases h

theorem execBuild_next (h : execBuild s = .next t) :
    s.txs = .idle ∧ frameFits s.frame s.c s.n = true ∧ t = s.buildAll := by
  simp only [execBuild] at h
  split at h
  · cases h
  · next hx =>
    split at h
    · next hf => cases h; exact ⟨by simpa using hx, hf, rfl⟩
    · cases h

theorem execHeader_next (h : execHeader s = .next t) :
    (s.en = true ∧ s.st = .header ∧ t = { s.drivePins true false true with st := .pull }) ∨
      (s.psmAt .header = false ∧ t = s) := by
  simp only [execHeader] at h
  split at h
  · next hp => cases h; exact .inl ⟨(State.psmAt_iff.1 hp).1, (State.psmAt_iff.1 hp).2, rfl⟩
  · next hp => cases h; exact .inr ⟨by simpa using hp, rfl⟩

theorem execPull_next (h : execPull s = .next t) :
    (s.en = true ∧ s.st = .pull ∧ ∃ w rest, s.queue = w :: rest ∧
      t = { s with queue := rest, osr := w, cnt := 0, ph := .low, st := .bitloop0 }) ∨
      (s.psmAt .pull = true ∧ s.queue = [] ∧ t = s) ∨ (s.psmAt .pull = false ∧ t = s) := by
  simp only [execPull] at h
  split at h
  · next hp =>
    split at h
    · next hq => cases h; exact .inr (.inl ⟨hp, hq, rfl⟩)
    · next w rest hq =>
      cases h
      exact .inl ⟨(State.psmAt_iff.1 hp).1, (State.psmAt_iff.1 hp).2, w, rest, hq, rfl⟩
  · next hp => cases h; exact .inr (.inr ⟨by simpa using hp, rfl⟩)

theorem execBitloop0_next (h : execBitloop0 s = .next t) :
    (s.en = true ∧ s.st = .bitloop0 ∧ t = s.bitStep (s.bitLow true) .bitloop1) ∨
      (s.psmAt .bitloop0 = false ∧ t = s) := by
  simp only [execBitloop0] at h
  split at h
  · next hp => cases h; exact .inl ⟨(State.psmAt_iff.1 hp).1, (State.psmAt_iff.1 hp).2, rfl⟩
  · next hp => cases h; exact .inr ⟨by simpa using hp, rfl⟩

theorem execBitloop1_next (h : execBitloop1 s = .next t) :
    (s.en = true ∧ s.st = .bitloop1 ∧
      t = s.bitStep { s.bitLow (osrTop s.osr) with osr := osrShift s.osr } .bitloop2) ∨
      (s.psmAt .bitloop1 = false ∧ t = s) := by
  simp only [execBitloop1] at h
  split at h
  · next hp => cases h; exact .inl ⟨(State.psmAt_iff.1 hp).1, (State.psmAt_iff.1 hp).2, rfl⟩
  · next hp => cases h; exact .inr ⟨by simpa using hp, rfl⟩

theorem execBitloop2_next (h : execBitloop2 s = .next t) :
    (s.en = true ∧ s.st = .bitloop2 ∧ t = s.bitStep (s.bitLow false) .header) ∨
      (s.psmAt .bitloop2 = false ∧ t = s) := by
  simp only [execBitloop2] at h
  split at h
  · next hp => cases h; exact .inl ⟨(State.psmAt_iff.1 hp).1, (State.psmAt_iff.1 hp).2, rfl⟩
  · next hp => cases h; exact .inr ⟨by simpa using hp, rfl⟩

/-- The halves of a bit (R159). -/
theorem State.bitStep_low (low : State) (next : PsmState) (h : s.ph = .low) :
    s.bitStep low next = low := by
  simp [State.bitStep, h]

theorem State.bitStep_high (low : State) (next : PsmState) (h : s.ph = .high) :
    s.bitStep low next = s.bitHigh next := by
  simp [State.bitStep, h]

theorem State.lastBit_iff : s.lastBit = true ↔ s.cnt.toNat = 7 := by
  simp only [State.lastBit, beq_iff_eq]
  generalize s.cnt = c
  revert c
  decide

/-- The high half of the last bit of a state. -/
theorem State.bitHigh_last (next : PsmState) (h : s.lastBit = true) :
    s.bitHigh next = { s with clk := true, ph := .low, cnt := 0, st := next } := by
  simp [State.bitHigh, h]

/-- The high half of every other bit. -/
theorem State.bitHigh_not_last (next : PsmState) (h : s.lastBit = false) :
    s.bitHigh next = { s with clk := true, ph := .low, cnt := s.cnt + 1 } := by
  simp [State.bitHigh, h]

/-- Before the last bit CNT counts up without wrapping (R159). -/
theorem State.cnt_succ (h : s.lastBit = false) :
    s.cnt.toNat < 7 ∧ (s.cnt + 1).toNat = s.cnt.toNat + 1 := by
  have hc : s.cnt.toNat ≠ 7 := fun hc => by simp [State.lastBit_iff.2 hc] at h
  revert hc
  generalize s.cnt = c
  revert c
  decide

theorem execConstruct_next {c n slot : Nat} (h : execConstruct c n slot s = .next t) :
    (8 < c ∧ t = s.takeConstructReject c) ∨
      (1 ≤ c ∧ c ≤ 8 ∧ 1 ≤ n ∧ s.quiescent = true ∧ t = s.construct c n slot) := by
  simp only [execConstruct] at h
  split at h
  · next hc => cases h; exact .inl ⟨hc, rfl⟩
  · next hc =>
    have hc : ¬8 < c := hc
    split at h
    · cases h
    · next hd =>
      split at h
      · cases h
      · split at h
        · next hq => cases h; exact .inr ⟨by omega, by omega, by omega, hq, rfl⟩
        · cases h

theorem execEnable_next (h : execEnable s = .next t) :
    s.built = true ∧ t = { s with en := true } := by
  simp only [execEnable] at h
  split at h
  · next hb => cases h; exact ⟨hb, rfl⟩
  · cases h

theorem execTransmit_next {f : Frame} (h : execTransmit f s = .next t) :
    s.txs = .idle ∧ s.en = true ∧ frameFits f s.c s.n = true ∧
      t = { ({ s with frame := f } : State).buildAll with idx := 0, txs := .feed } := by
  simp only [execTransmit] at h
  split at h
  · cases h
  · next hb =>
    split at h
    · cases h
    · next he =>
      split at h
      · next hf => cases h; exact ⟨by simpa [State.busy] using hb, by simpa using he, hf, rfl⟩
      · cases h

theorem execPush_next (h : execPush s = .next t) :
    (s.feederEnabled = true ∧ ∃ v, Memory.read s.buf s.idx = some v ∧
      t = { s.fifoPush v with idx := s.idx + 1 }) ∨ (s.feederEnabled = false ∧ t = s) := by
  simp only [execPush] at h
  split at h
  · next hp =>
    split at h
    · next v hv => cases h; exact .inl ⟨hp, v, hv, rfl⟩
    · cases h
  · next hp => cases h; exact .inr ⟨by simpa using hp, rfl⟩

theorem execSettle_next (h : execSettle s = .next t) :
    (s.settleEnabled = true ∧ t = { s with txs := .idle, settleTimer := none, buf := [] }) ∨
      (s.settleEnabled = false ∧ t = s) := by
  simp only [execSettle] at h
  split at h
  · next hp => cases h; exact .inl ⟨hp, rfl⟩
  · next hp => cases h; exact .inr ⟨by simpa using hp, rfl⟩

/-! ## Fetch and step -/

/-- The operation of a state (R30, R106). -/
def psmOperation : PsmState → Instr
  | .header => .header
  | .pull => .pull
  | .bitloop0 => .bitloop0
  | .bitloop1 => .bitloop1
  | .bitloop2 => .bitloop2

/-- The byte at the PSM's program counter always decodes: a reserved code is no value of ST (R108). -/
theorem decode_fetchBytes (s : State) : decode s.fetchBytes = .ok (psmOperation s.st, []) := by
  simp only [State.fetchBytes]
  cases s.st <;> rfl

theorem State.fetchPsm_eq (s : State) : s.fetchPsm = .run (psmOperation s.st) s := by
  simp [State.fetchPsm, decode_fetchBytes]

/-- What the host's program offers: nothing, its first call, or an entry that is no call. -/
theorem State.fetchCall_cases (s : State) :
    (s.prog = [] ∧ s.fetchCall = .hold) ∨
    (∃ i rest, s.prog = i :: rest ∧ i.agent = .host ∧
      s.fetchCall = .run i { s with prog := rest }) ∨
    (∃ i rest, s.prog = i :: rest ∧ i.agent ≠ .host ∧ s.fetchCall = .notHost) := by
  simp only [State.fetchCall]
  split
  · next hp => exact .inl ⟨hp, rfl⟩
  · next i rest hp =>
    split
    · next hi => exact .inr (.inl ⟨i, rest, hp, hi, rfl⟩)
    · next hi => exact .inr (.inr ⟨i, rest, hp, hi, rfl⟩)

theorem State.fetchOther_idle (h : s.txs = .idle) : s.fetchOther = s.fetchCall := by
  simp [State.fetchOther, h]

theorem State.fetchOther_busy (h : s.txs ≠ .idle) : s.fetchOther = s.fetchCall.duringCall := by
  cases hx : s.txs <;> simp_all [State.fetchOther]

/-- What any agent can find: a hold, its own operation, the next call of the host's program while no call is in
flight, a program entry that is no call, or a call that may not begin. -/
theorem State.fetch_cases (s : State) (a : Agent) :
    s.fetch a = .hold ∨
    (a = .psm ∧ s.fetch a = .run (psmOperation s.st) s) ∨
    (a = .feeder ∧ s.fetch a = .run .push s) ∨
    (a = .host ∧ s.txs = .settle ∧ s.fetch a = .run .settle s) ∨
    (∃ i rest, s.prog = i :: rest ∧ i.agent = .host ∧ s.txs = .idle ∧
      s.fetch a = .run i { s with prog := rest }) ∨
    (∃ i rest, s.prog = i :: rest ∧ i.agent ≠ .host ∧ s.fetch a = .notHost) ∨
    (∃ i rest, s.prog = i :: rest ∧ i.agent = .host ∧ s.txs ≠ .idle ∧ a = .otherTask ∧
      s.fetch a = .overlap i) := by
  cases a with
  | host =>
    simp only [State.fetch, State.fetchHost]
    cases hx : s.txs with
    | idle =>
      rcases s.fetchCall_cases with ⟨-, h⟩ | ⟨i, rest, hp, hi, h⟩ | ⟨i, rest, hp, hi, h⟩
      · simp [h]
      · simp [h, hp, hi, hx]
      · simp [h, hp, hi]
    | feed => exact .inl rfl
    | settle => simp
  | feeder => simp [State.fetch]
  | psm => simp [State.fetch, State.fetchPsm_eq]
  | otherTask =>
    simp only [State.fetch]
    by_cases hx : s.txs = .idle
    · rw [State.fetchOther_idle hx]
      rcases s.fetchCall_cases with ⟨-, h⟩ | ⟨i, rest, hp, hi, h⟩ | ⟨i, rest, hp, hi, h⟩
      · simp [h]
      · simp [h, hp, hi, hx]
      · simp [h, hp, hi]
    · rw [State.fetchOther_busy hx]
      rcases s.fetchCall_cases with ⟨-, h⟩ | ⟨i, rest, hp, hi, h⟩ | ⟨i, rest, hp, hi, h⟩
      · simp [h, Fetched.duringCall]
      · simp [h, hp, hi, hx, Fetched.duringCall]
      · simp [h, hp, hi, Fetched.duringCall]

/-- What `onNext` can answer. -/
theorem onNext_next {f : State → State} {o : Result} (h : onNext f o = .next t) :
    ∃ u, o = .next u ∧ t = f u := by
  cases o with
  | next u => cases h; exact ⟨u, rfl, rfl⟩
  | fault r => cases h
  | refused r => cases h

/-- Everything a step can do: its turn is taken; then its agent holds, or runs one operation: the PSM's, the
feeder's, SETTLE, or, while no call is in flight, the next call of the host's program; then the drain event is
delivered. -/
theorem step_next (h : step s = .next t) :
    t = s.takeTurn.deliverDrain ∨
    ∃ i u v, exec i u = .next v ∧ t = v.deliverDrain ∧
      (u = s.takeTurn ∧ (i = psmOperation s.st ∧ s.nextTurn.agent = .psm ∨
          i = .push ∧ s.nextTurn.agent = .feeder ∨
          i = .settle ∧ s.nextTurn.agent = .host ∧ s.txs = .settle) ∨
        ∃ rest, s.prog = i :: rest ∧ i.agent = .host ∧ s.txs = .idle ∧
          u = { s.takeTurn with prog := rest }) := by
  simp only [step] at h
  rcases s.takeTurn.fetch_cases s.nextTurn.agent with
    hf | ⟨ha, hf⟩ | ⟨ha, hf⟩ | ⟨ha, hx, hf⟩ | ⟨i, rest, hp, hi, hx, hf⟩ | ⟨i, rest, -, -, hf⟩ |
      ⟨i, rest, -, -, -, -, hf⟩ <;>
    rw [hf] at h
  · cases h; exact .inl rfl
  · obtain ⟨v, hv, rfl⟩ := onNext_next h
    exact .inr ⟨_, _, v, hv, rfl, .inl ⟨rfl, .inl ⟨rfl, ha⟩⟩⟩
  · obtain ⟨v, hv, rfl⟩ := onNext_next h
    exact .inr ⟨_, _, v, hv, rfl, .inl ⟨rfl, .inr (.inl ⟨rfl, ha⟩)⟩⟩
  · obtain ⟨v, hv, rfl⟩ := onNext_next h
    exact .inr ⟨_, _, v, hv, rfl, .inl ⟨rfl, .inr (.inr ⟨rfl, ha, hx⟩)⟩⟩
  · obtain ⟨v, hv, rfl⟩ := onNext_next h
    exact .inr ⟨i, _, v, hv, rfl, .inr ⟨rest, hp, hi, hx, rfl⟩⟩
  · cases h
  · cases h

/-! ## The two observations (R15) -/

/-- Between a triple and itself no event is read. -/
@[simp] theorem tripleEvents_self (p : Bool × Bool × Bool) : tripleEvents p p = [] := by
  simp [tripleEvents]

/-- A PSM without an enabled operation holds (R14, R158, R167). -/
theorem exec_psm_blocked (h : s.psmEnabled = false) : exec (psmOperation s.st) s = .next s := by
  simp only [State.psmEnabled, State.stalled, State.empty, Bool.and_eq_false_iff, Bool.not_eq_false',
    Bool.and_eq_true, beq_iff_eq, List.isEmpty_iff] at h
  rcases h with h | ⟨⟨-, hs⟩, hq⟩
  · cases s.st <;> simp [psmOperation, exec, execHeader, execPull, execBitloop0, execBitloop1,
      execBitloop2, State.psmAt, h]
  · simp [hs, psmOperation, exec, execPull, hq]

/-- An operation of the PSM makes no call. -/
theorem exec_psm_prog {st : PsmState} (h : exec (psmOperation st) s = .next t) : t.prog = s.prog := by
  cases st <;> simp only [psmOperation, exec] at h
  · rcases execHeader_next h with ⟨-, -, rfl⟩ | ⟨-, rfl⟩ <;> rfl
  · rcases execPull_next h with ⟨-, -, w, rest, -, rfl⟩ | ⟨-, -, rfl⟩ | ⟨-, rfl⟩ <;> rfl
  · rcases execBitloop0_next h with ⟨-, -, rfl⟩ | ⟨-, rfl⟩ <;> [skip; rfl]
    simp only [State.bitStep]; split <;> rfl
  · rcases execBitloop1_next h with ⟨-, -, rfl⟩ | ⟨-, rfl⟩ <;> [skip; rfl]
    simp only [State.bitStep]; split <;> rfl
  · rcases execBitloop2_next h with ⟨-, -, rfl⟩ | ⟨-, rfl⟩ <;> [skip; rfl]
    simp only [State.bitStep]; split <;> rfl

/-- With no call of the host left, a step that is no step of the PSM changes no pin. -/
theorem step_pins (hp : s.prog = []) (h : step s = .next t) :
    t.prog = [] ∧ (s.psmStepsNext = false → t.pins = s.pins) := by
  rcases step_next h with rfl | ⟨i, u, v, hv, rfl, hh⟩
  · exact ⟨hp, fun _ => rfl⟩
  rcases hh with ⟨rfl, ⟨rfl, ha⟩ | ⟨rfl, -⟩ | ⟨rfl, -, -⟩⟩ | ⟨rest, hq, -⟩
  · refine ⟨(exec_psm_prog hv).trans hp, fun hn => ?_⟩
    have hb : s.psmEnabled = false := by simpa [State.psmStepsNext, ha] using hn
    have hv' := hv.symm.trans (exec_psm_blocked (s := s.takeTurn) hb)
    cases hv'
    rfl
  · rcases execPush_next hv with ⟨-, w, -, rfl⟩ | ⟨-, rfl⟩ <;> exact ⟨hp, fun _ => rfl⟩
  · rcases execSettle_next hv with ⟨-, rfl⟩ | ⟨-, rfl⟩ <;> exact ⟨hp, fun _ => rfl⟩
  · simp [hp] at hq

/-- With no call of the host left, the wire trace of a run is the one read off its pin trace (R15). -/
theorem runTrace_readOff {k : Nat} {trace : List WireEvent} (hp : s.prog = [])
    (h : runTrace k s = some (t, trace)) : trace = readOff s.pins (pinTrace k s) := by
  induction k generalizing s trace with
  | zero => cases h; rfl
  | succ k ih =>
    simp only [runTrace, pinTrace] at h ⊢
    cases hs : step s with
    | next u =>
      simp only [hs, Option.map_eq_some_iff] at h ⊢
      obtain ⟨⟨t', tr⟩, hr, ht⟩ := h
      cases ht
      obtain ⟨hq, hpins⟩ := step_pins hp hs
      rw [ih hq hr]
      cases hn : s.psmStepsNext with
      | true => simp [readOff, wireEvents]
      | false => simp [wireEvents, hpins hn]
    | fault r => simp [hs] at h
    | refused r => simp [hs] at h

end Sys2Proof.Machine
end

