-- ==== Sys2Proof/Laws/PerInstr.lean ====
section
/-! SUPPORT. Per-instruction family: what each operation's encoding looks like (R90, R106). -/

namespace Sys2Proof.Laws.OneByteCode

/-- An operation's encoding, if it has one, is a single byte with one of the five state codes. -/
def Statement (i : Instr) : Prop :=
  ∀ bytes, encode i = some bytes → ∃ b, bytes = [b] ∧ b.toNat < 5

/-- An operation with no encoding meets it. -/
theorem of_none {i : Instr} (h : encode i = none) : Statement i := by
  intro bytes hb
  rw [h] at hb
  cases hb

/-- An operation whose encoding is the byte `b` meets it. -/
theorem of_byte {i : Instr} {b : Byte} (h : encode i = some [b]) (hb : b.toNat < 5) : Statement i := by
  intro bytes hi
  rw [h] at hi
  cases hi
  exact ⟨b, rfl, hb⟩

theorem transpose8 : Statement (.transpose8) := of_none rfl
theorem pack : Statement (.pack) := of_none rfl
theorem swap7 : Statement (.swap7) := of_none rfl
theorem swap14 : Statement (.swap14) := of_none rfl
theorem nibx : Statement (.nibx) := of_none rfl
theorem unpack : Statement (.unpack) := of_none rfl
theorem lanepack (i : Nat) (k : Fin 3) : Statement (.lanepack i k) := of_none rfl
theorem emitword (i : Nat) (k : Fin 3) (p : Fin 8) : Statement (.emitword i k p) := of_none rfl
theorem build : Statement (.build) := of_none rfl
theorem header : Statement (.header) := of_byte rfl (by decide)
theorem pull : Statement (.pull) := of_byte rfl (by decide)
theorem bitloop0 : Statement (.bitloop0) := of_byte rfl (by decide)
theorem bitloop1 : Statement (.bitloop1) := of_byte rfl (by decide)
theorem bitloop2 : Statement (.bitloop2) := of_byte rfl (by decide)
theorem construct (c n slot : Nat) : Statement (.construct c n slot) := of_none rfl
theorem enable : Statement (.enable) := of_none rfl
theorem transmit (frame : Frame) : Statement (.transmit frame) := of_none rfl
theorem push : Statement (.push) := of_none rfl
theorem settle : Statement (.settle) := of_none rfl

end Sys2Proof.Laws.OneByteCode
end

