-- ==== Sys2Proof/Tests/Slice0.lean ====
section
/-! SUPPORT. The model's own tests: expected values are the spec's (95_test_vectors.md unless a comment says otherwise), never the model's; then, for each statement with hypotheses, a theorem that they can be met. -/

namespace Sys2Proof.Tests

open Sys2Proof.Machine

/-! ## Helpers -/

/-- A field of the next state. -/
def after {α : Type} (o : Result) (g : State → α) : Option α := (nextState? o).map g

/-- Whether an outcome is that refusal. -/
def refusedWith (o : Result) (r : Refusal) : Bool :=
  match o with
  | .next _ => false
  | .fault _ => false
  | .refused q => q == r

/-- Whether an outcome is that fault. -/
def faultsWith (o : Result) (r : Fault) : Bool :=
  match o with
  | .next _ => false
  | .fault q => q == r
  | .refused _ => false

/-- An enabled instance of `c` lanes of `n` LEDs with a frame in its store. -/
def ready (c n : Nat) (f : Frame) : State :=
  { State.reset with built := true, en := true, c := c, n := n, frame := f }

/-- The enabled PSM in a state, half and bit. -/
def psm (st : PsmState) (ph : Phase) (cnt : BitVec 3) (osr : Word) (pins : Bool × Bool × Bool)
    (queue : List Word) : State :=
  { State.reset with
    built := true, en := true, c := 1, n := 1, fifoDepth := 4
    st := st, ph := ph, cnt := cnt, osr := osr, queue := queue
    dataPin := pins.1, clk := pins.2.1, stb := pins.2.2 }

/-- The frame of section 1.1: one lane, one LED, (R,G,B) = (1,2,4). -/
def frameP1 : Frame := [[⟨0x01, 0x02, 0x04⟩]]

/-- The frame of program P3: three lanes, two LEDs. -/
def frameP3 : Frame :=
  [[⟨0xFF, 0x00, 0x0F⟩, ⟨0x01, 0x80, 0x00⟩],
   [⟨0x00, 0xFF, 0xF0⟩, ⟨0x02, 0x40, 0xFF⟩],
   [⟨0xAA, 0x55, 0x3C⟩, ⟨0x03, 0xC0, 0x81⟩]]

/-- A frame of eight lanes and one LED. -/
def frameEight : Frame := List.replicate 8 [⟨0xA5, 0x80, 0x07⟩]

/-- The general input of sections 2.1 and 2.2. -/
def general : Bytes8 := ⟨0x12, 0x34, 0x56, 0x78, 0x9A, 0xBC, 0xDE, 0xF0⟩

/-- Work registers. -/
def work (x y : Word) : State := { State.reset with x := x, y := y }

/-- The feeder at work: `words` in the buffer, the next one at `idx`. -/
def feeding (idx : Nat) (buf : Memory) (queue : List Word) (depth : Nat) : State :=
  { ready 1 1 frameP1 with txs := .feed, idx := idx, buf := buf, queue := queue, fifoDepth := depth }

/-- The settle timer started at 1000.0 microseconds, the time now in nanoseconds. -/
def settling (now : Nat) : State :=
  { ready 1 1 frameP1 with txs := .settle, idx := 24, settleTimer := some 1000000, now := now }

/-- A schedule of 50 PSM turns and the word A5000000 queued behind the reset pins (2.5). -/
def passStart : State :=
  { State.reset with built := true, en := true, c := 1, n := 1, queue := [0xA5000000], turns := psmTurns 50 }

/-! ## Well-formedness: each check refuses an ill-formed term -/

theorem test_wf_not_rectangular : (Instr.transmit [[⟨0, 0, 0⟩], []]).wellFormed = false := by decide
theorem test_wf_no_lane : (Instr.transmit []).wellFormed = false := by decide
theorem test_wf_nine_lanes :
    (Instr.transmit (List.replicate 9 [⟨0, 0, 0⟩])).wellFormed = false := by decide
theorem test_wf_no_led : (Instr.transmit [[], []]).wellFormed = false := by decide
theorem test_wf_eight_lanes : (Instr.transmit frameEight).wellFormed = true := by decide

/-! ## Decoding: the state codes of R106, written out bit by bit; R108's reserved codes; R90 -/

theorem test_decode_header : decode [0b00000000] = .ok (.header, []) := by decide
theorem test_decode_pull : decode [0b00000001] = .ok (.pull, []) := by decide
theorem test_decode_bitloop0 : decode [0b00000010] = .ok (.bitloop0, []) := by decide
theorem test_decode_bitloop1 : decode [0b00000011] = .ok (.bitloop1, []) := by decide
theorem test_decode_bitloop2 : decode [0b00000100] = .ok (.bitloop2, []) := by decide
theorem test_decode_reserved :
    [decodeTableWord 8 5, decodeTableWord 8 6, decodeTableWord 8 7] = [none, none, none] := by decide
theorem test_decode_rest : decode [0b00000001, 0xFF] = .ok (.pull, [0xFF]) := by decide
theorem test_decode_no_bytes : decode [] = .error .noBytes := by decide
theorem test_encode_host_operation : encode .build = none := by decide
theorem test_table_word : decodeTableWord 8 3 = some .bitloop1 := by decide

/-! ## BitPlaneEncoder (2.1, 2.2) -/

theorem test_transpose8_general :
    after (exec .transpose8 { State.reset with inp := general }) State.pl =
      some ⟨0x00, 0x55, 0x66, 0x78, 0xFF, 0xAA, 0xCC, 0xF0⟩ := by decide
theorem test_transpose8_one_bit :
    after (exec .transpose8 { State.reset with inp := ⟨0, 0, 0, 0x10, 0, 0, 0, 0⟩ }) State.pl =
      some ⟨0, 0, 0, 0, 0x08, 0, 0, 0⟩ := by decide
theorem test_pack :
    after (exec .pack { State.reset with inp := general }) (fun s => (s.x, s.y)) =
      some (0xF0DEBC9A, 0x78563412) := by decide
theorem test_swap7 :
    after (exec .swap7 (work 0xF0DEBC9A 0x78563412)) (fun s => (s.x, s.y)) =
      some (0xE5F4ED38, 0x29F42138) := by decide
theorem test_swap14 :
    after (exec .swap14 (work 0xE5F4ED38 0x29F42138)) (fun s => (s.x, s.y)) =
      some (0xF7C6A5F0, 0x08C6A5F0) := by decide
theorem test_nibx :
    after (exec .nibx (work 0xF7C6A5F0 0x08C6A5F0)) (fun s => (s.x, s.y, s.t)) =
      some (0xF0CCAAFF, 0x78665500, 0xF0CCAAFF) := by decide
theorem test_unpack :
    after (exec .unpack (work 0xF0CCAAFF 0x78665500)) State.pl =
      some ⟨0x00, 0x55, 0x66, 0x78, 0xFF, 0xAA, 0xCC, 0xF0⟩ := by decide
theorem test_reference_steps :
    after (execAll [.pack, .swap7, .swap14, .nibx, .unpack]
        { State.reset with inp := ⟨0xDE, 0xAD, 0xBE, 0xEF, 0xCA, 0xFE, 0xBA, 0xBE⟩ }) State.pl =
      some ⟨0x0A, 0xFD, 0xAF, 0xFF, 0xE5, 0xEE, 0x39, 0xFF⟩ := by decide

/-! ## FrameBuilder (1.1, 2.3, P3) -/

theorem test_lanepack_three_lanes :
    after (exec (.lanepack 0 0) (ready 3 2 frameP3)) State.inp =
      some ⟨0, 0, 0, 0, 0, 0x55, 0xFF, 0x00⟩ := by decide
theorem test_lanepack_red :
    after (exec (.lanepack 1 1) (ready 3 2 frameP3)) State.inp =
      some ⟨0, 0, 0, 0, 0, 0x03, 0x02, 0x01⟩ := by decide
theorem test_emitword_index_44 :
    after (exec (.emitword 1 2 3) { ready 1 2 [] with pl := ⟨0, 0, 0, 0xA5, 0, 0, 0, 0⟩ }) State.buf =
      some [(44, 0xA5000000)] := by decide
theorem test_emitword_first_index :
    after (exec (.emitword 0 0 7) { ready 1 1 [] with pl := ⟨0, 0, 0, 0, 0, 0, 0, 0xFF⟩ }) State.buf =
      some [(0, 0xFF000000)] := by decide
theorem test_build_example :
    after (exec .build (ready 1 1 frameP1)) (fun s => s.buf.map Prod.snd) =
      some ([0, 0, 0, 0, 0, 0, 0x80000000, 0] ++ [0, 0, 0, 0, 0, 0, 0, 0x80000000] ++
        [0, 0, 0, 0, 0, 0x80000000, 0, 0]) := by decide
theorem test_build_three_lanes :
    after (exec .build (ready 3 2 frameP3)) (fun s =>
        (s.buf.length, [0, 1, 8, 24, 38, 47].map (Memory.read s.buf))) =
      some (48, [some 0x40000000, some 0x60000000, some 0xA0000000, some 0xA0000000,
        some 0x60000000, some 0x60000000]) := by decide

/-! ## ProtocolProgram (2.4) -/

theorem test_header_from_reset_pins :
    after (exec .header (psm .header .low 0 0 (false, false, false) [])) (fun s => (s.st, s.pins)) =
      some (.pull, (true, false, true)) := by decide
theorem test_header_not_enabled :
    after (exec .header State.reset) id = some State.reset := by decide
theorem test_pull :
    after (exec .pull (psm .pull .low 0 0 (true, false, true) [0xA5000000, 0x12000000]))
        (fun s => (s.st, s.osr, s.queue, s.pins)) =
      some (.bitloop0, 0xA5000000, [0x12000000], (true, false, true)) := by decide
theorem test_pull_stalls :
    after (exec .pull (psm .pull .low 0 0 (true, false, true) [])) (fun s => (s.st, s.pins, s.stalled)) =
      some (.pull, (true, false, true), true) := by decide
theorem test_bitloop0_low :
    after (exec .bitloop0 (psm .bitloop0 .low 0 0 (true, false, true) []))
        (fun s => (s.st, s.ph, s.pins)) =
      some (.bitloop0, .high, (true, false, false)) := by decide
theorem test_bitloop0_last :
    after (exec .bitloop0 (psm .bitloop0 .high 7 0 (true, false, false) []))
        (fun s => (s.st, s.ph, s.cnt, s.pins)) =
      some (.bitloop1, .low, 0, (true, true, false)) := by decide
theorem test_bitloop1_low :
    after (exec .bitloop1 (psm .bitloop1 .low 1 0x4A000000 (true, true, false) []))
        (fun s => (s.ph, s.osr, s.pins)) =
      some (.high, 0x94000000, (false, false, false)) := by decide
theorem test_bitloop1_high :
    after (exec .bitloop1 (psm .bitloop1 .high 1 0x94000000 (false, false, false) []))
        (fun s => (s.st, s.ph, s.cnt, s.pins)) =
      some (.bitloop1, .low, 2, (false, true, false)) := by decide
theorem test_bitloop2_low :
    after (exec .bitloop2 (psm .bitloop2 .low 0 0 (true, true, false) [])) (fun s => (s.ph, s.pins)) =
      some (.high, (false, false, false)) := by decide
theorem test_bitloop2_last :
    after (exec .bitloop2 (psm .bitloop2 .high 7 0 (false, false, false) []))
        (fun s => (s.st, s.cnt, s.pins)) =
      some (.header, 0, (false, true, false)) := by decide

/-! ## Transmitter (2.7) -/

theorem test_construct_nine_lanes :
    after (exec (.construct 9 1 0) State.reset) (fun s => (s.rejected, s.built)) =
      some (some 9, false) := by decide
theorem test_construct_eight_lanes :
    after (exec (.construct 8 1 0) State.reset) (fun s => (s.built, s.c, s.n, s.en, s.st, s.txs)) =
      some (true, 8, 1, false, .header, .idle) := by decide
theorem test_enable :
    after (exec .enable { ready 1 1 [] with en := false }) State.en = some true := by decide
theorem test_transmit :
    after (exec (.transmit frameP1) (ready 1 1 [])) (fun s => (s.txs, s.idx, s.buf.length)) =
      some (.feed, 0, 24) := by decide
theorem test_transmit_overlap :
    refusedWith (exec (.transmit frameP1) (settling 1000000)) .overlapTransmit = true := by decide
theorem test_push_last :
    after (step { feeding 23 [(23, 0x80000000)] [] 1 with turns := [⟨.feeder, 0⟩] })
        (fun s => (s.idx, s.drained, s.txs, s.queue)) =
      some (24, true, .settle, [0x80000000]) := by decide
theorem test_push_full :
    after (exec .push (feeding 3 [(3, 0x80000000)] [0] 1)) (fun s => (s.idx, s.queue)) =
      some (3, [0]) := by decide
theorem test_settle_too_early :
    after (exec .settle (settling 1054999)) State.txs = some .settle := by decide
theorem test_settle_returns :
    after (exec .settle (settling 1055000)) State.txs = some .idle := by decide

/-! ## The machine -/

/-- 2.8: after one PSM step from the reset pins, PULL and the pins (1,0,1). -/
theorem test_step_first_instruction :
    after (step (State.reset.withFetchWord 8 0)) (fun s => (s.st, s.pins)) =
      some (.pull, (true, false, true)) := by decide
theorem test_step_placed_pull :
    after (step (State.reset.withFetchWord 8 1)) State.st = some .bitloop0 := by decide
/-- P7: CONSTRUCT, ENABLE, one PSM step; the wire shows one strobe. -/
theorem test_step_call :
    after (step { ready 1 1 [] with en := false, prog := [.enable], turns := [⟨.host, 5⟩] })
        (fun s => (s.en, s.prog, s.now)) = some (true, [], 5) := by decide
/-- 2.9. -/
theorem test_div :
    [41599, 41600, 83199, 83200, 125000, 250000].map Config.divOf = [0, 1, 1, 2, 3, 6] := by decide

/-! ## The hypotheses of the statements can be met -/

theorem witness_transpose : ∃ t, exec .transpose8 { State.reset with inp := general } = .next t :=
  ⟨_, rfl⟩
/-- TransposeTwiceIsIdentity, and TransposeIsXorLinear for three inputs. -/
theorem witness_transpose_again :
    ∃ t u, exec .transpose8 { State.reset with inp := general } = .next t ∧
      exec .transpose8 { t with inp := t.pl } = .next u := ⟨_, _, rfl, rfl⟩
theorem witness_transpose_linear :
    ∃ ta tb tx, exec .transpose8 { State.reset with inp := general } = .next ta ∧
      exec .transpose8 { State.reset with inp := zeroBytes } = .next tb ∧
      exec .transpose8 { State.reset with inp := xorBytes general zeroBytes } = .next tx :=
  ⟨_, _, _, rfl, rfl, rfl⟩
/-- LanepackFillsLaneArray: eight lanes (no entry of no lane) and the last LED of three lanes (both clauses). -/
theorem witness_LanepackFillsLaneArray_eight :
    0 < (ready 8 1 frameEight).n ∧ (ready 8 1 frameEight).c ≤ 8 ∧
      frameFits (ready 8 1 frameEight).frame 8 1 = true ∧ 7 - (0 : Fin 8).val < 8 := by decide
theorem witness_LanepackFillsLaneArray_three :
    1 < (ready 3 2 frameP3).n ∧ (ready 3 2 frameP3).c ≤ 8 ∧
      frameFits (ready 3 2 frameP3).frame 3 2 = true ∧ 7 - (5 : Fin 8).val < 3 ∧
      3 ≤ 7 - (4 : Fin 8).val := by decide
/-- FrameReadOutsideGridFaults: the first LED index outside; a frame of another shape; for BUILD too. -/
theorem witness_FrameReadOutsideGridFaults :
    (ready 3 2 frameP3).n ≤ 2 ∧ (ready 3 2 frameP1).txs = .idle ∧
      frameFits (ready 3 2 frameP1).frame 3 2 = false ∧
      faultsWith (exec .build (ready 3 2 frameP1)) .frameAbsent = true := by decide
/-- EmitwordStoresPlaneWord: the last LED; BufferWritesStopOutsideBuild: the first index outside, and in flight. -/
theorem witness_EmitwordStoresPlaneWord :
    (ready 1 2 []).txs = .idle ∧ 1 < (ready 1 2 []).n := by decide
theorem witness_BufferWritesStopOutsideBuild :
    (ready 1 2 []).txs = .idle ∧ (ready 1 2 []).n ≤ 2 ∧ (settling 0).txs ≠ .idle := by decide
theorem witness_BuildWritesClosedForm :
    (ready 3 2 frameP3).txs = .idle ∧ frameFits (ready 3 2 frameP3).frame 3 2 = true ∧
      1 < (ready 3 2 frameP3).n ∧ 48 ≤ 24 * (ready 3 2 frameP3).n := by decide
/-- BuildLengthAndLowBits, and BuildUnusedLanesAreZero with C = 1. -/
theorem witness_build : ∃ t, exec .build (ready 1 1 frameP1) = .next t ∧ (ready 1 1 frameP1).c = 1 :=
  ⟨_, rfl, rfl⟩
/-- BuildDependsOnFrameOnly: the second state has another buffer and other registers. -/
theorem witness_BuildDependsOnFrameOnly :
    ∃ t t', exec .build (ready 1 1 frameP1) = .next t ∧
      exec .build { ready 1 1 frameP1 with buf := [(7, 0x55000000)], pl := general } = .next t' :=
  ⟨_, _, rfl, rfl⟩
theorem witness_HeaderAssertsStrobe :
    (psm .header .low 0 0 (false, true, false) []).en = true ∧
      (psm .header .low 0 0 (false, true, false) []).st = .header := by decide
/-- PullFetchesOrHolds: a word to fetch, and none. -/
theorem witness_PullFetchesOrHolds :
    (psm .pull .low 0 0 (true, false, true) [5]).en = true ∧
      (psm .pull .low 0 0 (true, false, true) [5]).queue = 5 :: [] ∧
      (psm .pull .low 0 0 (true, false, true) []).st = .pull ∧
      (psm .pull .low 0 0 (true, false, true) []).queue = [] := by decide
/-- The three BITLOOP statements: the low half, the high half of the first bit, the high half of the last. -/
theorem witness_bitloop (st : PsmState) :
    (psm st .low 7 0 (true, true, false) []).ph = .low ∧
      (psm st .high 0 0 (true, false, false) []).ph = .high ∧
      (psm st .high 0 0 (true, false, false) []).cnt ≠ 7 ∧
      (psm st .high 7 0 (true, false, false) []).cnt = 7 ∧
      (psm st .high 7 0 (true, false, false) []).en = true ∧
      (psm st .high 7 0 (true, false, false) []).st = st := by
  cases st <;> decide
/-- PsmHoldsWhenNotEnabled: not enabled, and another state. -/
theorem witness_PsmHoldsWhenNotEnabled :
    psmStateOf .header = some .header ∧ State.reset.en = false ∧
      (psm .pull .low 0 0 (true, false, true) []).st ≠ .header := by decide
/-- StateTransitionsFollowTable: the operation the program counter selects, in a BITLOOP state and in PULL. -/
theorem witness_StateTransitionsFollowTable :
    (psm .bitloop1 .high 6 0 (true, false, false) []).en = true ∧
      decode (psm .bitloop1 .high 6 0 (true, false, false) []).fetchBytes = .ok (.bitloop1, []) ∧
      (psm .bitloop1 .high 6 0 (true, false, false) []).inBitloop = true ∧
      decode (psm .pull .low 0 0 (true, false, true) [5]).fetchBytes = .ok (.pull, []) := by decide
/-- PassSendsWireFrame, PassDrivesPins. -/
theorem witness_pass :
    passStart.turns = psmTurns 50 ++ [] ∧ passStart.en = true ∧ passStart.st = .header ∧
      passStart.stb = false ∧ passStart.queue = 0xA5000000 :: [] := by decide
/-- LowBitsNeverReachPins: two different words with one plane byte. -/
theorem witness_LowBitsNeverReachPins :
    planeOfWord 0xA5000000 = planeOfWord 0xA5FFFFFF ∧ (0xA5000000 : Word) ≠ 0xA5FFFFFF := by decide
theorem witness_DataStableWhenClockRises :
    ∃ t, exec .bitloop0 (psm .bitloop0 .high 3 0 (true, false, false) []) = .next t ∧
      (psm .bitloop0 .high 3 0 (true, false, false) []).clk = false ∧ t.clk = true :=
  ⟨_, rfl, rfl, rfl⟩
/-- PsmSeesOnlyItsOwnState: two states that differ outside the view. -/
theorem witness_PsmSeesOnlyItsOwnState :
    Instr.agent .pull = .psm ∧ psmView State.reset = psmView { State.reset with x := 1, idx := 7 } ∧
      State.reset.x ≠ 1 ∧ State.reset.idx ≠ 7 := ⟨rfl, rfl, by decide, by decide⟩
theorem witness_HostLeavesPsmAlone :
    ∃ t, Instr.agent (.transmit frameP1) = .host ∧
      (∀ c n slot, Instr.transmit frameP1 ≠ .construct c n slot) ∧
      exec (.transmit frameP1) (ready 1 1 []) = .next t := ⟨_, rfl, by simp, rfl⟩
/-- ConstructCompletesWhenQuiescent: the reset state, and an enabled PSM that waits in PULL. -/
theorem witness_ConstructCompletesWhenQuiescent :
    State.reset.quiescent = true ∧
      (psm .pull .low 0 0 (true, false, true) []).quiescent = true := by decide
/-- ConstructRejectsTooManyLanes, at the least C; DecodeInvertsEncode. -/
theorem witness_ConstructRejectsTooManyLanes : 8 < 9 ∧ encode .bitloop2 = some [0x04] := by decide
/-- ConstructRefusals: in flight, and a PSM at work. -/
theorem witness_ConstructRefusals :
    (settling 0).txs ≠ .idle ∧ (psm .bitloop1 .low 0 0 (true, true, false) []).txs = .idle ∧
      (psm .bitloop1 .low 0 0 (true, true, false) []).quiescent = false := by decide
/-- ConstructEstablishesResetState at its greatest C, from the state that just waits. -/
theorem witness_ConstructEstablishesResetState :
    ∃ t, exec (.construct 8 1 0) (psm .pull .low 0 0 (true, false, true) []) = .next t := ⟨_, rfl⟩
theorem witness_EnableSetsEnableBit : (ready 1 1 []).built = true ∧ State.reset.built = false := by decide
theorem witness_TransmitBuildsAndFeeds :
    (ready 3 2 []).txs = .idle ∧ (ready 3 2 []).en = true ∧ frameFits frameP3 3 2 = true := by decide
theorem witness_TransmitRefusedBusyOrDisabled :
    (settling 0).txs ≠ .idle ∧ State.reset.txs = .idle ∧ State.reset.en = false := by decide
theorem witness_TransmitRefusesWrongShape :
    (ready 3 2 []).txs = .idle ∧ (ready 3 2 []).en = true ∧ frameFits frameP1 3 2 = false := by decide
/-- PushMovesOneWord: the last word into the last place; not feeding; drained; a full queue. -/
theorem witness_PushMovesOneWord :
    (feeding 23 [(23, 5)] [] 1).txs = .feed ∧ 23 < 24 * (feeding 23 [(23, 5)] [] 1).n ∧
      (feeding 23 [(23, 5)] [] 1).queue.length < (feeding 23 [(23, 5)] [] 1).fifoDepth ∧
      Memory.read (feeding 23 [(23, 5)] [] 1).buf 23 = some 5 ∧
      State.reset.txs ≠ .feed ∧ 24 * (feeding 24 [] [] 1).n ≤ (feeding 24 [] [] 1).idx ∧
      (feeding 3 [] [5] 1).fifoDepth ≤ (feeding 3 [] [5] 1).queue.length := by decide
/-- SettleWaitsThenReturns at its boundary. -/
theorem witness_SettleWaitsThenReturns :
    (settling 1055000).settleTimer = some 1000000 ∧ 1000000 + 55000 ≤ (settling 1055000).now ∧
      (settling 1054999).now < 1000000 + 55000 ∧ State.reset.txs ≠ .settle := by decide
theorem witness_LastPushStartsSettle :
    ({ feeding 23 [(23, 5)] [] 1 with turns := [⟨.feeder, 0⟩] } : State).nextTurn.agent = .feeder ∧
      (feeding 23 [(23, 5)] [] 1).txs = .feed ∧
      (feeding 23 [(23, 5)] [] 1).idx + 1 = 24 * (feeding 23 [(23, 5)] [] 1).n ∧
      (feeding 23 [(23, 5)] [] 1).queue.length < (feeding 23 [(23, 5)] [] 1).fifoDepth ∧
      Memory.read (feeding 23 [(23, 5)] [] 1).buf 23 = some 5 := by decide
/-- NoReturnBeforeSettleDelay: the step that returns. -/
theorem witness_NoReturnBeforeSettleDelay :
    ∃ t, step { settling 1000000 with turns := [⟨.host, 55000⟩] } = .next t ∧ t.txs ≠ .settle :=
  ⟨_, rfl, by decide⟩
/-- FeederAndPsmNeverDeadlock: PULL with an empty queue, and words left to push. -/
theorem witness_FeederAndPsmNeverDeadlock :
    (feeding 3 [(3, 5)] [] 1).en = true ∧ 1 ≤ (feeding 3 [(3, 5)] [] 1).fifoDepth ∧
      (Memory.read (feeding 3 [(3, 5)] [] 1).buf 3).isSome = true ∧
      ({ feeding 3 [(3, 5)] [] 1 with st := .pull } : State).stalled = true := by decide
/-- QueueKeepsItsOrder, ShapeFixedByConstruct: an operation that moves a word. -/
theorem witness_exec_next :
    (∃ t, exec .push (feeding 3 [(3, 5)] [] 1) = .next t ∧ t.queue = [5]) ∧
      ∀ c n slot, Instr.push ≠ .construct c n slot := ⟨⟨_, rfl, rfl⟩, by simp⟩
/-- BufferUnchangedInFlight: a push while the feeder works. -/
theorem witness_BufferUnchangedInFlight :
    ∃ t, step { feeding 3 [(3, 5)] [] 1 with turns := [⟨.feeder, 0⟩] } = .next t ∧ t.txs ≠ .idle :=
  ⟨_, rfl, by decide⟩
theorem witness_StepRunsDecodedOperation :
    passStart.nextTurn.agent = .psm ∧ decode passStart.fetchBytes = .ok (.header, []) := by decide
/-- P6's last line: another task's TRANSMIT in flight is refused as an overlap (R212). -/
theorem test_step_overlap :
    refusedWith (step { settling 1000000 with turns := [⟨.otherTask, 0⟩], prog := [.transmit frameP1] })
      .overlapTransmit = true := by decide
/-- R193: no other host operation may begin between the call and its return. -/
theorem test_step_call_in_flight :
    [Instr.lanepack 0 0, .transpose8, .enable, .construct 9 1 0].map (fun i =>
      refusedWith (step { feeding 3 [(3, 5)] [] 1 with turns := [⟨.otherTask, 0⟩], prog := [i] })
        .callInFlight) = [true, true, true, true] := by decide
/-- R15: a hold and a push leave no triple in the pin trace. -/
theorem test_pin_trace :
    pinTrace 3 { feeding 3 [(3, 5)] [] 1 with
      st := .header, turns := [⟨.psm, 0⟩, ⟨.psm, 0⟩, ⟨.feeder, 0⟩] } = [(true, false, true)] := by decide
/-- R8: the default of STB_ACTIVE is high. -/
theorem test_strobe_level : State.reset.strobeLevel = .low ∧ State.reset.strobeLevel .low = .high := by
  decide
/-- StepRunsFeederAndHost: the turns of its clauses. -/
theorem witness_StepRunsFeederAndHost :
    ({ settling 0 with turns := [⟨.host, 0⟩] } : State).nextTurn.agent = .host ∧
      (settling 0).txs = .settle ∧ (feeding 3 [] [] 1).txs = .feed ∧ (feeding 3 [] [] 1).txs ≠ .idle ∧
      State.reset.txs = .idle ∧ Instr.agent .enable = .host ∧ (∀ f, Instr.enable ≠ .transmit f) ∧
      ({ State.reset with turns := [⟨.otherTask, 0⟩], prog := [.pull] } : State).nextTurn.agent =
        .otherTask ∧
      Instr.agent .pull ≠ .host ∧ State.reset.prog = [] := by
  refine ⟨?_, ?_, ?_, ?_, ?_, ?_, by simp, ?_, ?_, ?_⟩ <;> decide
/-- The invariant's statements: a state in flight that has the invariant, with no call left. -/
theorem witness_invariant :
    Invariant { psm .pull .low 0 0 (true, false, true) [0x80000000] with turns := [⟨.psm, 0⟩] } := by
  constructor <;> constructor <;>
    simp [psm, State.reset, State.inBitloop, State.pins, lowBitsZero, Memory.wf, Memory.risesFrom]
theorem witness_step_from_invariant :
    ∃ t, step { psm .pull .low 0 0 (true, false, true) [0x80000000] with turns := [⟨.psm, 0⟩] } =
      .next t ∧ t.prog = [] ∧ t.st = .bitloop0 := ⟨_, rfl, rfl, rfl⟩
/-- WireTraceOfEveryRun: a run that ends quiescent, the closing strobe of a pass. -/
theorem witness_run_invariant :
    Invariant { psm .header .low 0 0 (false, true, false) [] with turns := [⟨.psm, 0⟩] } := by
  constructor <;> constructor <;>
    simp [psm, State.reset, State.inBitloop, Memory.wf, Memory.risesFrom]
/-- WireTraceOfEveryRun, its run. -/
theorem witness_run :
    (runTrace 1 { psm .header .low 0 0 (false, true, false) [] with turns := [⟨.psm, 0⟩] }).map
        (fun r => (r.2, r.1.en, r.1.quiescent)) = some ([.strobe], true, true) := by decide
theorem witness_TransmitOwesItsFrame :
    Invariant (psm .pull .low 0 0 (true, false, true) []) ∧
      ∃ t, exec (.transmit frameP1) (psm .pull .low 0 0 (true, false, true) []) = .next t := by
  refine ⟨?_, _, rfl⟩
  constructor <;> constructor <;>
    simp [psm, State.reset, State.inBitloop, State.pins, Memory.wf, Memory.risesFrom]

end Sys2Proof.Tests
end

section
/-! PROOFS. Scope (00_scope.md): an operation of the PSM that is not enabled holds (O25), and the steps of the
feeder, the host and another task (O53). -/

namespace Sys2Proof.Machine

section

variable {s : State}

/-! ## Operations of the PSM that are not enabled (R14, R40, R167) -/

/-- The operations of the PSM are those of its states, one for each (R30, R106). -/
theorem psmStateOf_eq_some_iff {i : Instr} {st : PsmState} :
    psmStateOf i = some st ↔ i = psmOperation st := by
  constructor
  · intro h
    cases i <;> cases h <;> rfl
  · rintro rfl
    cases st <;> rfl

/-- An operation of the PSM runs only where the PSM is enabled and stands in its state. -/
theorem exec_psmOperation_of_not_psmAt {st : PsmState} (h : ¬ s.psmAt st = true) :
    exec (psmOperation st) s = .next s := by
  cases st with
  | header => exact if_neg h
  | pull => exact if_neg h
  | bitloop0 => exact if_neg h
  | bitloop1 => exact if_neg h
  | bitloop2 => exact if_neg h

/-! ## What the host and another task fetch (R115, R192, R193) -/

theorem State.fetchCall_nil (hp : s.prog = []) : s.fetchCall = .hold := by
  simp [State.fetchCall, hp]

theorem State.fetchCall_host {i : Instr} {rest : List Instr} (hp : s.prog = i :: rest)
    (hi : i.agent = .host) : s.fetchCall = .run i { s with prog := rest } := by
  simp [State.fetchCall, hp, hi]

theorem State.fetchCall_notHost {i : Instr} {rest : List Instr} (hp : s.prog = i :: rest)
    (hi : i.agent ≠ .host) : s.fetchCall = .notHost := by
  simp [State.fetchCall, hp, hi]

/-- While no call is in flight the host and another task find the same (R193). -/
theorem State.fetch_idle {a : Agent} (ha : a = .host ∨ a = .otherTask) (hx : s.txs = .idle) :
    s.fetch a = s.fetchCall := by
  rcases ha with rfl | rfl
  · simp [State.fetch, State.fetchHost, hx]
  · exact State.fetchOther_idle hx

theorem overlapRefusal_of_not_transmit {i : Instr} (h : ∀ f, i ≠ .transmit f) :
    overlapRefusal i = .callInFlight := by
  cases i with
  | transmit f => exact absurd rfl (h f)
  | _ => rfl

/-! ## The step of each agent but the PSM -/

/-- A step performs what the agent of the next turn fetches. -/
theorem step_of_fetch {f : Fetched} (h : s.takeTurn.fetch s.nextTurn.agent = f) :
    step s = perform f s.takeTurn :=
  congrArg (perform · s.takeTurn) h

/-- The feeder's one operation is PUSH (R194). -/
theorem step_feeder (ha : s.nextTurn.agent = .feeder) :
    step s = onNext State.deliverDrain (exec .push s.takeTurn) :=
  step_of_fetch (f := .run .push s.takeTurn) (by simp [ha, State.fetch])

/-- The host in SETTLE performs SETTLE (R192). -/
theorem step_host_settle (ha : s.nextTurn.agent = .host) (hx : s.txs = .settle) :
    step s = onNext State.deliverDrain (exec .settle s.takeTurn) :=
  step_of_fetch (f := .run .settle s.takeTurn) (by simp [ha, hx, State.fetch, State.fetchHost])

/-- The host in FEED waits for the drain (R192). -/
theorem step_host_feed (ha : s.nextTurn.agent = .host) (hx : s.txs = .feed) :
    step s = .next s.takeTurn.deliverDrain :=
  step_of_fetch (f := .hold) (by simp [ha, hx, State.fetch, State.fetchHost])

/-- While no call is in flight the host, as another task, performs the next entry of the program (R115, R193). -/
theorem step_idle (ha : s.nextTurn.agent = .host ∨ s.nextTurn.agent = .otherTask)
    (hx : s.txs = .idle) : step s = perform s.takeTurn.fetchCall s.takeTurn :=
  step_of_fetch (State.fetch_idle ha hx)

/-- While a call is in flight another task's entry of the program may not begin (R193, R212, R241). -/
theorem step_otherTask_busy (ha : s.nextTurn.agent = .otherTask) (hx : s.txs ≠ .idle) :
    step s = perform s.takeTurn.fetchCall.duringCall s.takeTurn :=
  step_of_fetch (by rw [ha]; exact State.fetchOther_busy hx)

end

/-! ## The obligations -/

/-- Settles O25: the operation is that of the state it names, and there the PSM's guard fails. -/
theorem psmHoldsWhenNotEnabled : Obligations.PsmHoldsWhenNotEnabled := by
  intro i st s hi hoff
  rw [psmStateOf_eq_some_iff.1 hi]
  refine exec_psmOperation_of_not_psmAt fun hat => ?_
  obtain ⟨hen, hst⟩ := State.psmAt_iff.1 hat
  rcases hoff with hdis | hne
  · simp [hen] at hdis
  · exact hne hst

/-- Settles O53: the step of each agent, and with it each entry the program can hold. -/
theorem stepRunsFeederAndHost : Obligations.StepRunsFeederAndHost := by
  intro s
  refine ⟨step_feeder, step_host_settle, step_host_feed, fun ha hx => ?_, fun ha hx => ?_⟩
  · rw [step_idle ha hx]
    refine ⟨fun hp => ?_, fun i rest hp => ⟨fun hi => ?_, fun hi => ?_⟩⟩
    · rw [State.fetchCall_nil (s := s.takeTurn) hp]; rfl
    · rw [State.fetchCall_host (s := s.takeTurn) hp hi]; rfl
    · rw [State.fetchCall_notHost (s := s.takeTurn) hp hi]; rfl
  · rw [step_otherTask_busy ha hx]
    refine ⟨fun hp => ?_, fun i rest hp => ⟨?_, fun hi hf => ?_, fun hi => ?_⟩⟩
    · rw [State.fetchCall_nil (s := s.takeTurn) hp]; rfl
    · rintro f rfl
      rw [State.fetchCall_host (s := s.takeTurn) hp rfl]; rfl
    · rw [State.fetchCall_host (s := s.takeTurn) hp hi]
      exact congrArg Host.Outcome.refused (overlapRefusal_of_not_transmit hf)
    · rw [State.fetchCall_notHost (s := s.takeTurn) hp hi]; rfl

end Sys2Proof.Machine
end

section
/-! PROOFS. State (10_state.md): what the PSM and the host may write (O31, O32, O48), the reset state (O33, O54, O55),
the clock divider (O49) and the step in the PSM's turn (O52). -/

namespace Sys2Proof.Machine

section

variable {s t : State}

/-! ## Who performs an operation (R10, R105) -/

/-- An operation is one of the host's, that of one state of the PSM, or the feeder's PUSH. -/
theorem agent_cases (i : Instr) :
    i.agent = .host ∨ (∃ st, i = psmOperation st) ∨ i = .push := by
  cases i with
  | header => exact .inr (.inl ⟨.header, rfl⟩)
  | pull => exact .inr (.inl ⟨.pull, rfl⟩)
  | bitloop0 => exact .inr (.inl ⟨.bitloop0, rfl⟩)
  | bitloop1 => exact .inr (.inl ⟨.bitloop1, rfl⟩)
  | bitloop2 => exact .inr (.inl ⟨.bitloop2, rfl⟩)
  | push => exact .inr (.inr rfl)
  | _ => exact .inl rfl

theorem exists_psmOperation_of_agent {i : Instr} (h : i.agent = .psm) :
    ∃ st, i = psmOperation st := by
  rcases agent_cases i with hhost | hpsm | rfl
  · cases h.symm.trans hhost
  · exact hpsm
  · cases h

/-! ## What an operation of the PSM reads and writes (R26) -/

/-- The state `s` with all that the PSM writes taken from `u`. EN is not among it: the PSM only reads EN (R40). -/
def State.withPsm (s u : State) : State :=
  { s with
    st := u.st, cnt := u.cnt, ph := u.ph, osr := u.osr, queue := u.queue
    dataPin := u.dataPin, clk := u.clk, stb := u.stb }

/-- Of two states with the same EN, one that takes over the PSM's registers of the other has its view. -/
theorem psmView_withPsm (h : s.en = t.en) : psmView (s.withPsm t) = psmView t := by
  simp [psmView, State.withPsm, State.pins, h]

theorem en_eq_of_psmView_eq (h : psmView s = psmView t) : s.en = t.en :=
  congrArg Prod.fst h

/-- A state takes over nothing new from one with the same view. -/
theorem State.withPsm_eq_self (h : psmView s = psmView t) : t.withPsm s = t := by
  simp only [psmView, State.pins, Prod.mk.injEq] at h
  obtain ⟨-, hst, hcnt, hph, hosr, ⟨hdata, hclk, hstb⟩, hqueue⟩ := h
  simp only [State.withPsm, hst, hcnt, hph, hosr, hdata, hclk, hstb, hqueue]

theorem State.psmAt_withPsm (h : s.en = t.en) (st : PsmState) :
    (s.withPsm t).psmAt st = t.psmAt st := by
  simp [State.psmAt, State.withPsm, h]

/-- The step of a BITLOOP state (R159) commutes with the change of everything outside the PSM. -/
theorem State.bitStep_withPsm (s r low : State) (next : PsmState) :
    (r.withPsm s).bitStep (r.withPsm low) next = r.withPsm (s.bitStep low next) := by
  cases hph : s.ph with
  | low => rw [State.bitStep_low _ _ hph]; exact State.bitStep_low _ _ hph
  | high => rw [State.bitStep_high _ _ hph]; exact State.bitStep_high _ _ hph

/-- An operation of the PSM always answers a next state, and commutes with the change of everything outside the PSM:
it reads nothing there, and carries it over. -/
theorem exec_psmOperation_withPsm (st : PsmState) {r : State} (hen : r.en = s.en) :
    ∃ u, exec (psmOperation st) s = .next u ∧
      exec (psmOperation st) (r.withPsm s) = .next (r.withPsm u) := by
  have hat := State.psmAt_withPsm hen st
  by_cases h : s.psmAt st = true
  · rw [h] at hat
    cases st with
    | header => exact ⟨_, if_pos h, if_pos hat⟩
    | pull =>
      simp only [psmOperation, exec, execPull, h, hat, if_true]
      cases hq : s.queue with
      | nil => exact ⟨s, rfl, by simp only [State.withPsm, hq]⟩
      | cons w rest => exact ⟨_, rfl, by simp only [State.withPsm, hq]⟩
    | bitloop0 =>
      exact ⟨_, if_pos h, (if_pos hat).trans (congrArg _ (s.bitStep_withPsm r (s.bitLow true) _))⟩
    | bitloop1 =>
      exact ⟨_, if_pos h, (if_pos hat).trans (congrArg _
        (s.bitStep_withPsm r { s.bitLow (osrTop s.osr) with osr := osrShift s.osr } _))⟩
    | bitloop2 =>
      exact ⟨_, if_pos h, (if_pos hat).trans (congrArg _ (s.bitStep_withPsm r (s.bitLow false) _))⟩
  · exact ⟨s, exec_psmOperation_of_not_psmAt h,
      exec_psmOperation_of_not_psmAt fun h' => h (hat.symm.trans h')⟩

/-- An operation of the PSM writes its registers, the pins and the queue only. -/
theorem exec_psmOperation_frame {st : PsmState} (h : exec (psmOperation st) s = .next t) :
    t = s.withPsm t := by
  obtain ⟨u, hu, hw⟩ := exec_psmOperation_withPsm st (s := s) (r := s) rfl
  cases h.symm.trans hu
  exact Host.Outcome.next.inj (hu.symm.trans hw)

/-! ## What an operation of the host, CONSTRUCT apart, writes (R27, R121, R142, R191, R192, R198) -/

/-- `t` differs from `s` at most in what the host writes without CONSTRUCT: the registers of the encoder and the
builder, the frame store and the buffer, and of the transmitter TXS, IDX, the settle timer and EN. -/
def sameButHost (s t : State) : Prop :=
  t = { s with
    inp := t.inp, pl := t.pl, x := t.x, y := t.y, t := t.t, pos := t.pos, frame := t.frame, buf := t.buf
    txs := t.txs, idx := t.idx, settleTimer := t.settleTimer, en := t.en }

theorem sameButHost_buildAll (s : State) : sameButHost s s.buildAll := by
  obtain ⟨hsame, -, -⟩ := s.buildAll_spec
  unfold sameButBuild at hsame
  unfold sameButHost
  rw [hsame]

theorem sameButHost_transmit (s : State) (f : Frame) :
    sameButHost s { ({ s with frame := f } : State).buildAll with idx := 0, txs := .feed } := by
  obtain ⟨hsame, -, -⟩ := State.buildAll_spec { s with frame := f }
  unfold sameButBuild at hsame
  unfold sameButHost
  rw [hsame]

/-- BUILD leaves EN. -/
theorem State.buildAll_en (s : State) : s.buildAll.en = s.en :=
  (congrArg State.en s.buildAll_spec.1 :)

/-- Everything an operation of the host but CONSTRUCT can write; EN is never cleared (R214). -/
theorem exec_host_next {i : Instr} (hi : i.agent = .host) (hc : ∀ c n slot, i ≠ .construct c n slot)
    (h : exec i s = .next t) : sameButHost s t ∧ (s.en = true → t.en = true) := by
  cases i with
  | transpose8 => cases h; exact ⟨rfl, id⟩
  | pack => cases h; exact ⟨rfl, id⟩
  | swap7 => cases h; exact ⟨rfl, id⟩
  | swap14 => cases h; exact ⟨rfl, id⟩
  | nibx => cases h; exact ⟨rfl, id⟩
  | unpack => cases h; exact ⟨rfl, id⟩
  | lanepack led k => obtain ⟨-, -, rfl⟩ := execLanepack_next h; exact ⟨rfl, id⟩
  | emitword led k p => obtain ⟨-, -, rfl⟩ := execEmitword_next h; exact ⟨rfl, id⟩
  | build =>
    obtain ⟨-, -, rfl⟩ := execBuild_next h
    exact ⟨sameButHost_buildAll s, s.buildAll_en.trans⟩
  | construct c n slot => exact absurd rfl (hc c n slot)
  | enable => obtain ⟨-, rfl⟩ := execEnable_next h; exact ⟨rfl, fun _ => rfl⟩
  | transmit f =>
    obtain ⟨-, -, -, rfl⟩ := execTransmit_next h
    exact ⟨sameButHost_transmit s f, (State.buildAll_en { s with frame := f }).trans⟩
  | settle => rcases execSettle_next h with ⟨-, rfl⟩ | ⟨-, rfl⟩ <;> exact ⟨rfl, id⟩
  | header | pull | bitloop0 | bitloop1 | bitloop2 | push => cases hi

/-! ## The flags of a new construction (R35, R37, R55) -/

@[simp] theorem State.construct_pins (c n slot : Nat) :
    (s.construct c n slot).pins = (false, false, false) := rfl

@[simp] theorem State.construct_empty (c n slot : Nat) : (s.construct c n slot).empty = true := rfl

@[simp] theorem State.construct_busy (c n slot : Nat) : (s.construct c n slot).busy = false := rfl

theorem one_le_fifoDepthOf (construction : Nat) : 1 ≤ Config.fifoDepthOf construction :=
  Nat.le_add_left 1 _

/-- A new queue has room: FIFO_DEPTH is at least 1 (R8). -/
@[simp] theorem State.construct_full (c n slot : Nat) : (s.construct c n slot).full = false :=
  decide_eq_false (Nat.not_le.2 (one_le_fifoDepthOf s.freeCount))

/-! ## The clock divider (R43, R250, R253) -/

theorem divOf_eq (f : Nat) : Config.divOf f = f / 41600 := rfl

theorem one_le_divOf_iff (f : Nat) : 1 ≤ Config.divOf f ↔ 41600 ≤ f := by
  rw [divOf_eq, Nat.le_div_iff_mul_le (by decide), Nat.one_mul]

theorem le_fSysKHz : 41600 ≤ Config.fSysKHz := Nat.le_add_right _ _

/-! ## The step in the PSM's turn (R10, R30) -/

theorem step_psm (ha : s.nextTurn.agent = .psm) :
    step s = onNext State.deliverDrain (exec (psmOperation s.st) s.takeTurn) :=
  step_of_fetch (f := .run (psmOperation s.st) s.takeTurn) (by rw [ha]; exact s.takeTurn.fetchPsm_eq)

/-! ## The invariant at reset (R55) -/

/-- The PSM at rest before HEADER, the strobe released, meets the invariant of its registers and pins. -/
theorem pinInvariant_of_header (hst : s.st = .header) (hcnt : s.cnt = 0) (hph : s.ph = .low)
    (hstb : s.stb = false) : PinInvariant s where
  counterIdle _ := ⟨hcnt, hph⟩
  headerStrobe _ := hstb
  pullPins h := by cases hst.symm.trans h
  highPins h := by cases hph.symm.trans h
  firstPins h := by cases hst.symm.trans h
  lowPins h := by simp [State.inBitloop, hst] at h
  onesBit h := by cases hst.symm.trans h
  zerosBit h := by cases hst.symm.trans h

/-- At reset the stores are empty and nothing is built, enabled or in flight. -/
theorem storeInvariant_reset : StoreInvariant State.reset where
  bufCanonical := Memory.wf_reset
  bufLowBits _ he := absurd he List.not_mem_nil
  queueLowBits _ hw := absurd hw List.not_mem_nil
  queueFits := Nat.zero_le _
  depthPositive := Nat.le_refl 1
  shapeLegal h := by cases h
  enabledBuilt h := by cases h
  busyEnabled h := absurd rfl h
  feedComplete h := by cases h
  timerRuns := by decide
  timerPast _ h := by cases h
  positionGone := rfl

end

/-! ## The obligations -/

/-- Settles O31: the second state is the first with everything outside the PSM changed, and the operation commutes
with that change. -/
theorem psmSeesOnlyItsOwnState : Obligations.PsmSeesOnlyItsOwnState := by
  intro i s s' hi hview
  obtain ⟨st, rfl⟩ := exists_psmOperation_of_agent hi
  have hen : s'.en = s.en := (en_eq_of_psmView_eq hview).symm
  obtain ⟨t, ht, ht'⟩ := exec_psmOperation_withPsm st hen
  rw [State.withPsm_eq_self hview] at ht'
  have hframe := exec_psmOperation_frame ht
  have hten : t.en = s.en := (congrArg State.en hframe :)
  exact ⟨t, s'.withPsm t, ht, ht', (psmView_withPsm (hen.trans hten.symm)).symm, hframe⟩

/-- Settles O32: nothing of the PSM is among what the host writes. -/
theorem hostLeavesPsmAlone : Obligations.HostLeavesPsmAlone := by
  intro i s t hi hc h
  obtain ⟨hsame, -⟩ := exec_host_next hi hc h
  exact ⟨(congrArg State.st hsame :), (congrArg State.cnt hsame :), (congrArg State.ph hsame :),
    (congrArg State.osr hsame :), (congrArg State.pins hsame :), (congrArg State.queue hsame :)⟩

/-- Settles O48, by the agent of the operation: what it may write holds nothing that construction fixes. -/
theorem shapeFixedByConstruct : Obligations.ShapeFixedByConstruct := by
  intro i s t hc h
  rcases agent_cases i with hi | ⟨st, rfl⟩ | rfl
  · obtain ⟨hsame, hen⟩ := exec_host_next hi hc h
    exact ⟨(congrArg State.c hsame :), (congrArg State.n hsame :), (congrArg State.slot hsame :),
      (congrArg State.fifoDepth hsame :), (congrArg State.built hsame :),
      (congrArg State.rejected hsame :), hen⟩
  · have hframe := exec_psmOperation_frame h
    exact ⟨(congrArg State.c hframe :), (congrArg State.n hframe :), (congrArg State.slot hframe :),
      (congrArg State.fifoDepth hframe :), (congrArg State.built hframe :),
      (congrArg State.rejected hframe :), (congrArg State.en hframe :).trans⟩
  · rcases execPush_next h with ⟨-, v, -, rfl⟩ | ⟨-, rfl⟩ <;>
      exact ⟨rfl, rfl, rfl, rfl, rfl, rfl, id⟩

/-- Settles O33: with at most 8 lanes the answer is that of a new construction, not of a rejection. -/
theorem constructEstablishesResetState : Obligations.ConstructEstablishesResetState := by
  intro c n slot s t hc h
  rcases execConstruct_next h with ⟨hover, -⟩ | ⟨-, -, -, -, rfl⟩
  · omega
  · simp

/-- Settles O49. -/
theorem dividerAtLeastOne : Obligations.DividerAtLeastOne :=
  ⟨fun f => ⟨divOf_eq f, one_le_divOf_iff f⟩,
    (one_le_divOf_iff _).2 le_fSysKHz⟩

/-- Settles O52: the byte of ST decodes to one operation only, the one the PSM's turn runs. -/
theorem stepRunsDecodedOperation : Obligations.StepRunsDecodedOperation := by
  intro s i ha hdec
  cases hdec.symm.trans (decode_fetchBytes s)
  exact step_psm ha

/-- Settles O54, row by row of the reset table. -/
theorem resetValues : Obligations.ResetValues :=
  ⟨rfl, rfl, rfl, rfl, rfl, rfl, rfl, rfl, rfl, rfl⟩

/-- Settles O55. -/
theorem resetHasInvariant : Obligations.ResetHasInvariant where
  stores := storeInvariant_reset
  pins := pinInvariant_of_header rfl rfl rfl rfl

end Sys2Proof.Machine
end

section
/-! PROOFS. Memory (20_memory.md): where LANEPACK, EMITWORD and BUILD stop (O13, O15), the queue's one producer and one
consumer (O46), the buffer of a transmission in flight (O47), the invariant of every step (O56) and the conservation of
what the machine owes the wire (O58). -/

namespace Sys2Proof.Machine

section

variable {s t : State}

/-! ## The buffer that BUILD leaves (R94, R143, R145) -/

/-- BUILD at once: besides IN and PL it writes the buffer, all of it, and leaves no builder position. -/
theorem State.buildAll_eq (s : State) : ∃ inp pl, s.buildAll =
    { s with inp := inp, pl := pl, buf := bufferPrefix s.frame s.c s.bufLen, pos := none } := by
  obtain ⟨hsame, hpos, hbuf⟩ := s.buildAll_spec
  unfold sameButBuild at hsame
  rw [hpos, hbuf] at hsame
  exact ⟨_, _, hsame⟩

theorem lowBitsZero_wordOfPlane (b : Byte) : lowBitsZero (wordOfPlane b) := by
  refine BitVec.eq_of_getLsbD_eq fun i hi => ?_
  have hmask : ∀ j < 32, 24 ≤ j → (0x00FFFFFF : Word).getLsbD j = false := by decide
  by_cases h : 24 ≤ i
  · rw [BitVec.getLsbD_and, hmask i hi h, Bool.and_false]
    exact BitVec.getLsbD_zero.symm
  · simp [wordOfPlane_bit, h]

theorem lowBitsZero_of_mem_bufferPrefix {f : Frame} {c m : Nat} {e : Nat × Word}
    (he : e ∈ bufferPrefix f c m) : lowBitsZero e.2 := by
  simp only [bufferPrefix, List.mem_map] at he
  obtain ⟨a, -, rfl⟩ := he
  exact lowBitsZero_wordOfPlane _

theorem bufferPrefix_read_isSome {f : Frame} {c m a : Nat} (ha : a < m) :
    (Memory.read (bufferPrefix f c m) a).isSome = true := by
  simp [bufferPrefix_read, ha]

/-! ## What an operation of the PSM can do (R157 to R164) -/

/-- The state in which the pass goes on after the eighth bit of a BITLOOP state (R166). -/
def afterBits : PsmState → Option PsmState
  | .header => none
  | .pull => none
  | .bitloop0 => some .bitloop1
  | .bitloop1 => some .bitloop2
  | .bitloop2 => some .header

/-- What the operation of a PSM state can make of `s`: it holds, or it performs HEADER, PULL, the low half of a 1, of
a real bit or of a 0, or the high half of a bit. -/
inductive PsmMove (s : State) : PsmState → State → Prop
  | hold {st} : PsmMove s st s
  | header (hst : s.st = .header) :
    PsmMove s .header { s.drivePins true false true with st := .pull }
  | pull {w rest} (hst : s.st = .pull) (hq : s.queue = w :: rest) :
    PsmMove s .pull { s with queue := rest, osr := w, cnt := 0, ph := .low, st := .bitloop0 }
  | lowOne (hst : s.st = .bitloop0) (hph : s.ph = .low) : PsmMove s .bitloop0 (s.bitLow true)
  | lowReal (hst : s.st = .bitloop1) (hph : s.ph = .low) :
    PsmMove s .bitloop1 { s.bitLow (osrTop s.osr) with osr := osrShift s.osr }
  | lowZero (hst : s.st = .bitloop2) (hph : s.ph = .low) : PsmMove s .bitloop2 (s.bitLow false)
  | high {st next} (hst : s.st = st) (hph : s.ph = .high) (hnext : afterBits st = some next) :
    PsmMove s st (s.bitHigh next)

theorem exec_psmOperation_move {st : PsmState} (h : exec (psmOperation st) s = .next t) :
    PsmMove s st t := by
  cases st with
  | header =>
    rcases execHeader_next h with ⟨-, hst, rfl⟩ | ⟨-, rfl⟩
    · exact .header hst
    · exact .hold
  | pull =>
    rcases execPull_next h with ⟨-, hst, w, rest, hq, rfl⟩ | ⟨-, -, rfl⟩ | ⟨-, rfl⟩
    · exact .pull hst hq
    · exact .hold
    · exact .hold
  | bitloop0 =>
    rcases execBitloop0_next h with ⟨-, hst, rfl⟩ | ⟨-, rfl⟩
    · cases hph : s.ph with
      | low => rw [State.bitStep_low _ _ hph]; exact .lowOne hst hph
      | high => rw [State.bitStep_high _ _ hph]; exact .high hst hph rfl
    · exact .hold
  | bitloop1 =>
    rcases execBitloop1_next h with ⟨-, hst, rfl⟩ | ⟨-, rfl⟩
    · cases hph : s.ph with
      | low => rw [State.bitStep_low _ _ hph]; exact .lowReal hst hph
      | high => rw [State.bitStep_high _ _ hph]; exact .high hst hph rfl
    · exact .hold
  | bitloop2 =>
    rcases execBitloop2_next h with ⟨-, hst, rfl⟩ | ⟨-, rfl⟩
    · cases hph : s.ph with
      | low => rw [State.bitStep_low _ _ hph]; exact .lowZero hst hph
      | high => rw [State.bitStep_high _ _ hph]; exact .high hst hph rfl
    · exact .hold

/-- A state with bits is a BITLOOP state, and the pass goes on from it neither to PULL nor to the first bits. -/
theorem afterBits_some {next : PsmState} (h : afterBits s.st = some next) :
    s.inBitloop = true ∧ next ≠ .pull ∧ next ≠ .bitloop0 := by
  cases hst : s.st <;> rw [hst] at h <;> cases h <;> simp [State.inBitloop, hst]

/-! ## The queue (R64, R82) -/

/-- Of the queue an operation of the PSM takes at most the oldest word, and that by PULL. -/
theorem exec_psmOperation_queue {st : PsmState} (h : exec (psmOperation st) s = .next t) :
    t.queue = s.queue ∨ (st = .pull ∧ ∃ w, s.queue = w :: t.queue ∧ t.osr = w) := by
  cases exec_psmOperation_move h with
  | pull _ hq => exact .inr ⟨rfl, _, hq, rfl⟩
  | hold | header | lowOne | lowReal | lowZero | high => exact .inl rfl

theorem exec_psmOperation_queue_suffix {st : PsmState} (h : exec (psmOperation st) s = .next t) :
    t.queue <:+ s.queue := by
  rcases exec_psmOperation_queue h with hq | ⟨-, w, hq, -⟩
  · rw [hq]
  · rw [hq]; exact List.suffix_cons w t.queue

/-! ## The drain event (R192, R217) -/

theorem State.deliverDrain_eq_self (h : s.drainDue = false) : s.deliverDrain = s := by
  simp [State.deliverDrain, h]

theorem State.drainDue_eq_false (h : s.txs ≠ .feed) : s.drainDue = false :=
  Bool.eq_false_iff.2 fun hd => h (State.drainDue_iff.1 hd).1

/-- Under the invariant no drain is due: the feeder still has a word to push. -/
theorem StoreInvariant.deliverDrain_eq (hs : StoreInvariant s) : s.deliverDrain = s := by
  refine State.deliverDrain_eq_self (Bool.eq_false_iff.2 fun hd => ?_)
  obtain ⟨hx, hidx⟩ := State.drainDue_iff.1 hd
  exact (hs.feedComplete hx).1.ne hidx

/-! ## The invariant of the stores -/

theorem StoreInvariant.takeTurn (hs : StoreInvariant s) : StoreInvariant s.takeTurn :=
  { hs with timerPast := fun d hd => (hs.timerPast d hd).trans (Nat.le_add_right _ _) }

/-- While no transmission is in flight the buffer may be any canonical list of words with low bits 0. -/
theorem StoreInvariant.setBuf (hs : StoreInvariant s) (hx : s.txs = .idle) {buf : Memory}
    (hwf : Memory.wf buf = true) (hlow : ∀ e ∈ buf, lowBitsZero e.2) :
    StoreInvariant { s with buf := buf } :=
  { hs with
    bufCanonical := hwf
    bufLowBits := hlow
    feedComplete := fun h => by cases hx.symm.trans h }

theorem StoreInvariant.emitWord (hs : StoreInvariant s) (hx : s.txs = .idle) (i : Nat) (k : Fin 3)
    (p : Fin 8) : StoreInvariant (s.emitWord i k p) := by
  refine hs.setBuf hx (Memory.wf_write _ _ hs.bufCanonical) fun e he => ?_
  rcases Memory.mem_write he with rfl | he
  · exact lowBitsZero_wordOfPlane _
  · exact hs.bufLowBits e he

theorem StoreInvariant.buildAll (hs : StoreInvariant s) (hx : s.txs = .idle) :
    StoreInvariant s.buildAll := by
  obtain ⟨inp, pl, hall⟩ := s.buildAll_eq
  rw [hall]
  exact { hs.setBuf hx (bufferPrefix_wf _ _ _) (fun _ => lowBitsZero_of_mem_bufferPrefix) with
    positionGone := rfl }

/-- An accepted TRANSMIT starts the feeder on a buffer that holds a word at each of its indices; there is one, since
what is enabled has been constructed with at least one LED (R78). -/
theorem StoreInvariant.transmit (hs : StoreInvariant s) (hx : s.txs = .idle) (hen : s.en = true)
    (f : Frame) :
    StoreInvariant { ({ s with frame := f } : State).buildAll with idx := 0, txs := .feed } := by
  obtain ⟨inp, pl, hall⟩ := State.buildAll_eq { s with frame := f }
  obtain ⟨-, -, hn⟩ := hs.shapeLegal (hs.enabledBuilt hen)
  have htimer : ¬ s.settleTimer.isSome = true := fun h => by cases hx.symm.trans (hs.timerRuns.2 h)
  rw [hall]
  exact { hs with
    bufCanonical := bufferPrefix_wf _ _ _
    bufLowBits := fun _ => lowBitsZero_of_mem_bufferPrefix
    busyEnabled := fun _ => hen
    feedComplete := fun _ => ⟨Nat.mul_pos (by decide) hn, fun _ => bufferPrefix_read_isSome⟩
    timerRuns := ⟨nofun, fun h => absurd h htimer⟩
    positionGone := rfl }

theorem StoreInvariant.settled (hs : StoreInvariant s) :
    StoreInvariant { s with txs := .idle, settleTimer := none, buf := [] } :=
  { hs with
    bufCanonical := Memory.wf_nil
    bufLowBits := fun _ he => absurd he List.not_mem_nil
    busyEnabled := fun h => absurd rfl h
    feedComplete := fun h => by cases h
    timerRuns := ⟨nofun, nofun⟩
    timerPast := fun _ h => by cases h }

theorem storeInvariant_construct {c n slot : Nat} (hc : 1 ≤ c) (hc8 : c ≤ 8) (hn : 1 ≤ n) :
    StoreInvariant (s.construct c n slot) where
  bufCanonical := Memory.wf_nil
  bufLowBits _ he := absurd he List.not_mem_nil
  queueLowBits _ hw := absurd hw List.not_mem_nil
  queueFits := Nat.zero_le _
  depthPositive := one_le_fifoDepthOf s.freeCount
  shapeLegal _ := ⟨hc, hc8, hn⟩
  enabledBuilt _ := rfl
  busyEnabled h := absurd rfl h
  feedComplete h := by cases h
  timerRuns := ⟨nofun, nofun⟩
  timerPast _ h := by cases h
  positionGone := rfl

/-- A push keeps the invariant once its drain event is delivered: the last push leaves nothing to feed, and starts the
settle timer at the present time. -/
theorem StoreInvariant.push (hs : StoreInvariant s) (hp : s.feederEnabled = true) {v : Word}
    (hv : Memory.read s.buf s.idx = some v) :
    StoreInvariant ({ s.fifoPush v with idx := s.idx + 1 } : State).deliverDrain := by
  obtain ⟨hx, hidx, hroom⟩ := State.feederEnabled_iff.1 hp
  obtain ⟨-, hall⟩ := hs.feedComplete hx
  have htimer : s.settleTimer = none := by
    simpa [hx] using hs.timerRuns
  have hqueue : ∀ w ∈ s.queue ++ [v], lowBitsZero w := by
    intro w hw
    rcases List.mem_append.1 hw with hw | hw
    · exact hs.queueLowBits w hw
    · rw [List.mem_singleton.1 hw]; exact hs.bufLowBits _ (Memory.mem_of_read hv)
  have hfits : (s.queue ++ [v]).length ≤ s.fifoDepth := by simpa using hroom
  by_cases hlast : s.idx + 1 = s.bufLen
  · have hdue : ({ s.fifoPush v with idx := s.idx + 1 } : State).drainDue = true :=
      State.drainDue_iff.2 ⟨hx, hlast⟩
    simp only [State.deliverDrain, hdue, if_true]
    exact { hs with
      queueLowBits := hqueue
      queueFits := hfits
      busyEnabled := fun _ => hs.busyEnabled (by simp [hx])
      feedComplete := fun h => by cases h
      timerRuns := ⟨fun _ => rfl, fun _ => rfl⟩
      timerPast := fun d hd => by cases hd; exact le_rfl }
  · have hdue : ({ s.fifoPush v with idx := s.idx + 1 } : State).drainDue = false :=
      Bool.eq_false_iff.2 fun hd => hlast (State.drainDue_iff.1 hd).2
    rw [State.deliverDrain_eq_self hdue]
    exact { hs with
      queueLowBits := hqueue
      queueFits := hfits
      feedComplete := fun _ => ⟨Nat.lt_of_le_of_ne hidx hlast, hall⟩ }

/-- What the PSM writes leaves the invariant of the stores, as long as it only takes words off the queue. -/
theorem StoreInvariant.withPsm (hs : StoreInvariant s) (hq : t.queue <:+ s.queue) :
    StoreInvariant (s.withPsm t) :=
  { hs with
    queueLowBits := fun w hw => hs.queueLowBits w (hq.subset hw)
    queueFits := hq.length_le.trans hs.queueFits }

theorem StoreInvariant.exec_psmOperation (hs : StoreInvariant s) {st : PsmState}
    (h : exec (psmOperation st) s = .next t) : StoreInvariant t := by
  rw [exec_psmOperation_frame h]
  exact hs.withPsm (exec_psmOperation_queue_suffix h)

theorem StoreInvariant.exec_host (hs : StoreInvariant s) {i : Instr} (hi : i.agent = .host)
    (h : exec i s = .next t) : StoreInvariant t := by
  cases i with
  | transpose8 => cases h; exact { hs with }
  | pack => cases h; exact { hs with }
  | swap7 => cases h; exact { hs with }
  | swap14 => cases h; exact { hs with }
  | nibx => cases h; exact { hs with }
  | unpack => cases h; exact { hs with }
  | lanepack led k => obtain ⟨-, -, rfl⟩ := execLanepack_next h; exact { hs with }
  | emitword led k p => obtain ⟨hx, -, rfl⟩ := execEmitword_next h; exact hs.emitWord hx led k p
  | build => obtain ⟨hx, -, rfl⟩ := execBuild_next h; exact hs.buildAll hx
  | construct c n slot =>
    rcases execConstruct_next h with ⟨-, rfl⟩ | ⟨hc, hc8, hn, -, rfl⟩
    · exact { hs with }
    · exact storeInvariant_construct hc hc8 hn
  | enable =>
    obtain ⟨hb, rfl⟩ := execEnable_next h
    exact { hs with enabledBuilt := fun _ => hb, busyEnabled := fun _ => rfl }
  | transmit f => obtain ⟨hx, hen, -, rfl⟩ := execTransmit_next h; exact hs.transmit hx hen f
  | settle =>
    rcases execSettle_next h with ⟨-, rfl⟩ | ⟨-, rfl⟩
    · exact hs.settled
    · exact hs
  | header | pull | bitloop0 | bitloop1 | bitloop2 | push => cases hi

/-! ## The invariant of the PSM's registers and the pins -/

/-- The invariant of the pins reads ST, CNT, PH and the pins only. -/
theorem PinInvariant.congr (hs : PinInvariant s) (hst : t.st = s.st) (hcnt : t.cnt = s.cnt)
    (hph : t.ph = s.ph) (hpins : t.pins = s.pins) : PinInvariant t := by
  have hloop : t.inBitloop = s.inBitloop := by simp [State.inBitloop, hst]
  obtain ⟨hdata, hclk, hstb⟩ : t.dataPin = s.dataPin ∧ t.clk = s.clk ∧ t.stb = s.stb := by
    simpa [State.pins] using hpins
  constructor <;> simp only [hst, hcnt, hph, hpins, hloop, hdata, hclk, hstb]
  · exact hs.counterIdle
  · exact hs.headerStrobe
  · exact hs.pullPins
  · exact hs.highPins
  · exact hs.firstPins
  · exact hs.lowPins
  · exact hs.onesBit
  · exact hs.zerosBit

/-- After HEADER the PSM stands in PULL with the pins that PULL leaves (R157, R158). -/
theorem PinInvariant.headerDone (hs : PinInvariant s) (hst : s.st = .header) :
    PinInvariant { s.drivePins true false true with st := .pull } where
  counterIdle _ := hs.counterIdle (by simp [State.inBitloop, hst])
  headerStrobe h := by cases h
  pullPins _ := rfl
  highPins h := by
    obtain ⟨-, hph⟩ := hs.counterIdle (by simp [State.inBitloop, hst])
    cases hph.symm.trans h
  firstPins h := by cases h
  lowPins h := by cases h
  onesBit h := by cases h
  zerosBit h := by cases h

/-- After PULL the PSM stands before the first bit, the pins as in PULL (R158). -/
theorem PinInvariant.pullDone (hs : PinInvariant s) (hst : s.st = .pull) (rest : List Word) (w : Word) :
    PinInvariant { s with queue := rest, osr := w, cnt := 0, ph := .low, st := .bitloop0 } where
  counterIdle h := by cases h
  headerStrobe h := by cases h
  pullPins h := by cases h
  highPins h := by cases h
  firstPins _ _ _ := hs.pullPins hst
  lowPins _ _ h := absurd ⟨rfl, rfl⟩ h
  onesBit _ h := by cases h
  zerosBit h := by cases h

/-- After the low half of a bit the clock is low and DATA holds the bit (R159). -/
theorem pinInvariant_bitLow {d : Bool} (hloop : s.inBitloop = true)
    (hones : s.st = .bitloop0 → d = true) (hzeros : s.st = .bitloop2 → d = false) :
    PinInvariant (s.bitLow d) where
  counterIdle h := by cases hloop.symm.trans h
  headerStrobe _ := rfl
  pullPins h := by simp [State.inBitloop, show s.st = .pull from h] at hloop
  highPins _ := ⟨rfl, rfl⟩
  firstPins _ h := by cases h
  lowPins _ h := by cases h
  onesBit h _ := hones h
  zerosBit h _ := hzeros h

/-- After the high half of a bit the clock is high; the PSM goes on to the next bit, or to a state that starts like one
(R159, R169). -/
theorem PinInvariant.bitHigh (hs : PinInvariant s) {next : PsmState} (hloop : s.inBitloop = true)
    (hph : s.ph = .high) (hpull : next ≠ .pull) (hfirst : next ≠ .bitloop0) :
    PinInvariant (s.bitHigh next) := by
  obtain ⟨-, hstb⟩ := hs.highPins hph
  cases hlast : s.lastBit with
  | true =>
    rw [State.bitHigh_last _ hlast]
    exact {
      counterIdle := fun _ => ⟨rfl, rfl⟩
      headerStrobe := fun _ => hstb
      pullPins := fun h => absurd h hpull
      highPins := fun h => by cases h
      firstPins := fun h => absurd h hfirst
      lowPins := fun _ _ _ => ⟨rfl, hstb⟩
      onesBit := fun _ h => by cases h
      zerosBit := fun _ h => by cases h }
  | false =>
    rw [State.bitHigh_not_last _ hlast]
    obtain ⟨-, hcnt⟩ := State.cnt_succ hlast
    exact {
      counterIdle := fun h => by cases hloop.symm.trans h
      headerStrobe := fun _ => hstb
      pullPins := fun h => by simp [State.inBitloop, show s.st = .pull from h] at hloop
      highPins := fun h => by cases h
      firstPins := fun _ _ h => by rw [show s.cnt + 1 = 0 from h] at hcnt; cases hcnt
      lowPins := fun _ _ _ => ⟨rfl, hstb⟩
      onesBit := fun _ h => by cases h
      zerosBit := fun _ h => by cases h }

theorem PinInvariant.exec_psmOperation (hs : PinInvariant s) {st : PsmState}
    (h : exec (psmOperation st) s = .next t) : PinInvariant t := by
  cases exec_psmOperation_move h with
  | hold => exact hs
  | header hst => exact hs.headerDone hst
  | pull hst _ => exact hs.pullDone hst _ _
  | lowOne hst _ =>
    exact pinInvariant_bitLow (by simp [State.inBitloop, hst]) (by simp) (by simp [hst])
  | lowReal hst _ =>
    have hlow : PinInvariant (s.bitLow (osrTop s.osr)) :=
      pinInvariant_bitLow (by simp [State.inBitloop, hst]) (by simp [hst]) (by simp [hst])
    exact hlow.congr rfl rfl rfl rfl
  | lowZero hst _ =>
    exact pinInvariant_bitLow (by simp [State.inBitloop, hst]) (by simp [hst]) (by simp)
  | high hst hph hnext =>
    subst hst
    obtain ⟨hloop, hpull, hfirst⟩ := afterBits_some hnext
    exact hs.bitHigh hloop hph hpull hfirst

theorem PinInvariant.exec_host (hs : PinInvariant s) {i : Instr} (hi : i.agent = .host)
    (h : exec i s = .next t) : PinInvariant t := by
  by_cases hc : ∃ c n slot, i = .construct c n slot
  · obtain ⟨c, n, slot, rfl⟩ := hc
    rcases execConstruct_next h with ⟨-, rfl⟩ | ⟨-, -, -, -, rfl⟩
    · exact hs.congr rfl rfl rfl rfl
    · exact pinInvariant_of_header rfl rfl rfl rfl
  · obtain ⟨hst, hcnt, hph, -, hpins, -⟩ := hostLeavesPsmAlone i s t hi (by simpa using hc) h
    exact hs.congr hst hcnt hph hpins

/-! ## The invariant over an operation -/

/-- Every operation, with the drain event delivered after it, keeps the invariant. -/
theorem Invariant.exec_deliverDrain (hs : Invariant s) {i : Instr} (h : exec i s = .next t) :
    Invariant t.deliverDrain := by
  obtain ⟨hstores, hpins⟩ := hs
  rcases agent_cases i with hi | ⟨st, rfl⟩ | rfl
  · have ht := hstores.exec_host hi h
    rw [ht.deliverDrain_eq]
    exact ⟨ht, hpins.exec_host hi h⟩
  · have ht := hstores.exec_psmOperation h
    rw [ht.deliverDrain_eq]
    exact ⟨ht, hpins.exec_psmOperation h⟩
  · rcases execPush_next h with ⟨hp, v, hv, rfl⟩ | ⟨-, rfl⟩
    · exact ⟨hstores.push hp hv, hpins.congr rfl rfl rfl rfl⟩
    · rw [hstores.deliverDrain_eq]
      exact ⟨hstores, hpins⟩

theorem Invariant.takeTurn (hs : Invariant s) : Invariant s.takeTurn :=
  ⟨hs.stores.takeTurn, hs.pins.congr rfl rfl rfl rfl⟩

/-- The invariant does not read the host's program. -/
theorem Invariant.setProg (hs : Invariant s) (prog : List Instr) :
    Invariant { s with prog := prog } :=
  ⟨{ hs.stores with }, hs.pins.congr rfl rfl rfl rfl⟩

/-! ## What is owed to the wire -/

/-- Shifting OSR sends its top bit and leaves the next ones to be sent (R70, R162). -/
theorem realBits_succ (w : Word) {k : Nat} (hk : k ≤ 31) :
    realBits w (k + 1) = .bit (osrTop w) :: realBits (osrShift w) k := by
  simp only [realBits, List.range_succ_eq_map, List.map_cons, List.map_map]
  refine congrArg _ (List.map_congr_left fun j hj => ?_)
  have hj : j < k := List.mem_range.1 hj
  have hbit : (osrShift w).getLsbD (31 - j) = w.getLsbD (31 - (j + 1)) := by
    have hsub : 31 - j - 1 = 31 - (j + 1) := by omega
    rw [osrShift, BitVec.getLsbD_shiftLeft, hsub]
    simp only [show 31 - j < 32 from by omega, show ¬ 31 - j < 1 from by omega, decide_true,
      decide_false, Bool.not_false, Bool.true_and]
  exact congrArg _ hbit.symm

theorem pulses_succ (k : Nat) (b : Bool) : pulses (k + 1) b = .bit b :: pulses k b := rfl

/-- The words owed are the same after a drain event as before it: it comes when no word is left to feed. -/
@[simp] theorem owedWords_deliverDrain (s : State) : owedWords s.deliverDrain = owedWords s := by
  cases hd : s.drainDue with
  | true =>
    obtain ⟨hx, hidx⟩ := State.drainDue_iff.1 hd
    simp [owedWords, hd, hx, hidx]
  | false => rw [State.deliverDrain_eq_self hd]

@[simp] theorem wireDue_deliverDrain (s : State) : wireDue s.deliverDrain = wireDue s := by
  simp only [wireDue, owedWords_deliverDrain]
  rfl

@[simp] theorem wireEvents_deliverDrain (s t : State) :
    wireEvents s t.deliverDrain = wireEvents s t := rfl

/-- A push moves the first word left in the buffer to the end of the queue: the words owed and their order stay (R81). -/
theorem owedWords_push (hx : s.txs = .feed) (hidx : s.idx < s.bufLen) {v : Word}
    (hv : Memory.read s.buf s.idx = some v) :
    owedWords { s.fifoPush v with idx := s.idx + 1 } = owedWords s := by
  unfold State.bufLen at hidx
  obtain ⟨m, hm⟩ := Nat.exists_eq_add_of_lt hidx
  have hleft : s.idx + m + 1 - s.idx = m + 1 := by omega
  have hnext : ∀ j, s.idx + 1 + j = s.idx + (j + 1) := by omega
  simp [owedWords, State.bufLen, hx, hm, hleft, hv, hnext, List.range_succ_eq_map]

/-- The return of TRANSMIT discards a buffer of which nothing is owed any more (R199). -/
theorem owedWords_settled (hx : s.txs = .settle) :
    owedWords { s with txs := .idle, settleTimer := none, buf := [] } = owedWords s := by
  simp [owedWords, hx]

/-- An operation that neither moves a pin nor changes what is owed pays nothing. -/
theorem wireDue_of_pins (hpins : t.pins = s.pins) (hdue : wireDue t = wireDue s) :
    wireEvents s t ++ wireDue t = wireDue s := by
  simp [wireEvents, hpins, hdue]

theorem wireDue_congr (hpass : passRest t = passRest s) (howed : owedWords t = owedWords s) :
    wireDue t = wireDue s := by
  simp only [wireDue, hpass, howed]

/-- An operation that leaves the words owed pays what it takes off the pass in progress. -/
theorem wireDue_of_passRest (howed : owedWords t = owedWords s)
    (hpass : wireEvents s t ++ passRest t = passRest s) :
    wireEvents s t ++ wireDue t = wireDue s := by
  simp only [wireDue, howed, ← hpass, List.append_assoc]

/-- While a bit is in progress it is one of those left (R24). -/
theorem State.bits_left (s : State) : 8 - s.cnt.toNat = 7 - s.cnt.toNat + 1 := by
  have hlt := s.cnt.isLt
  omega

/-- What the PSM has still to send when `k` bits of the state `st` are left. -/
def bitsLeft (st : PsmState) (osr : Word) (k : Nat) : List WireEvent :=
  match st with
  | .header => [.strobe]
  | .pull => []
  | .bitloop0 => pulses k true ++ realBits osr 8 ++ pulses 8 false ++ [.strobe]
  | .bitloop1 => realBits osr k ++ pulses 8 false ++ [.strobe]
  | .bitloop2 => pulses k false ++ [.strobe]

/-- Before the low half of a bit, that bit is still to be sent. -/
theorem passRest_low (hph : s.ph = .low) : passRest s = bitsLeft s.st s.osr (8 - s.cnt.toNat) := by
  cases hst : s.st <;> simp [passRest, bitsLeft, hst, hph]

/-- Between the halves of a bit, the rising clock will send what DATA holds. -/
theorem passRest_high (hs : PinInvariant s) (hloop : s.inBitloop = true) (hph : s.ph = .high) :
    passRest s = .bit s.dataPin :: bitsLeft s.st s.osr (7 - s.cnt.toNat) := by
  have hcnt := s.bits_left
  cases hst : s.st with
  | header => simp [State.inBitloop, hst] at hloop
  | pull => simp [State.inBitloop, hst] at hloop
  | bitloop0 => simp [passRest, bitsLeft, hst, hcnt, pulses_succ, hs.onesBit hst hph]
  | bitloop1 => simp [passRest, bitsLeft, hst, hph]
  | bitloop2 => simp [passRest, bitsLeft, hst, hcnt, pulses_succ, hs.zerosBit hst hph]

/-- The clock and the strobe falling put nothing on the wire (R15). -/
theorem wireEvents_of_low (hclk : t.clk = false) (hstb : t.stb = false) : wireEvents s t = [] := by
  simp [wireEvents, tripleEvents, State.pins, hclk, hstb]

/-- The high half of a bit puts the bit on the wire (R159). -/
theorem wireEvents_bitHigh (hs : PinInvariant s) (hph : s.ph = .high) (next : PsmState) :
    wireEvents s (s.bitHigh next) = [.bit s.dataPin] := by
  obtain ⟨hclk, hstb⟩ := hs.highPins hph
  simp [wireEvents, tripleEvents, State.pins, hclk, hstb]

/-- Where the bits of a state end, the bits of the next one begin, all eight of them. -/
theorem bitsLeft_afterBits {st next : PsmState} (h : afterBits st = some next) (osr : Word) :
    bitsLeft next osr 8 = bitsLeft st osr 0 := by
  cases st <;> cases h <;> simp [bitsLeft, pulses, realBits]

/-- The high half of a bit pays that bit (R159). -/
theorem wireDue_bitHigh (hs : PinInvariant s) (hph : s.ph = .high) {next : PsmState}
    (hnext : afterBits s.st = some next) :
    wireEvents s (s.bitHigh next) ++ wireDue (s.bitHigh next) = wireDue s := by
  have hrest : passRest (s.bitHigh next) = bitsLeft s.st s.osr (7 - s.cnt.toNat) := by
    rw [passRest_low (State.bitHigh_ph s next)]
    cases hlast : s.lastBit with
    | true => simpa [hlast, State.lastBit_iff.1 hlast] using bitsLeft_afterBits hnext s.osr
    | false =>
      obtain ⟨-, hcnt⟩ := State.cnt_succ hlast
      have hleft : 8 - (s.cnt.toNat + 1) = 7 - s.cnt.toNat := by omega
      simp only [State.bitHigh_st, State.bitHigh_osr, State.bitHigh_cnt, hlast, Bool.false_eq_true,
        if_false, hcnt, hleft]
  obtain ⟨hloop, -, -⟩ := afterBits_some hnext
  refine wireDue_of_passRest rfl ?_
  rw [wireEvents_bitHigh hs hph, passRest_high hs hloop hph, hrest, List.singleton_append]

/-- The low half of a bit pays nothing, and leaves the bit still to be sent (R159). -/
theorem wireDue_low (hclk : t.clk = false) (hstb : t.stb = false) (howed : owedWords t = owedWords s)
    (hpass : passRest t = passRest s) : wireEvents s t ++ wireDue t = wireDue s :=
  wireDue_of_passRest howed (by rw [wireEvents_of_low hclk hstb, hpass, List.nil_append])

/-- The bits of 1s and of 0s are owed alike in both halves before the clock rises. -/
theorem passRest_bitLow (d : Bool) (hst : s.st ≠ .bitloop1) : passRest (s.bitLow d) = passRest s := by
  cases h : s.st with
  | bitloop1 => exact absurd h hst
  | header | pull | bitloop0 | bitloop2 => simp [passRest, h]

/-- The low half of a bit of BITLOOP1 moves the bit from OSR to DATA (R162). -/
theorem passRest_bitloop1_low (hst : s.st = .bitloop1) (hph : s.ph = .low) :
    passRest { s.bitLow (osrTop s.osr) with osr := osrShift s.osr } = passRest s := by
  have hcnt := s.bits_left
  simp [passRest, hst, hph, hcnt, realBits_succ _ (show 7 - s.cnt.toNat ≤ 31 from by omega)]

/-- HEADER pays the strobe that ends the pass (R157). -/
theorem wireDue_header (hs : PinInvariant s) (hst : s.st = .header) :
    wireEvents s { s.drivePins true false true with st := .pull } ++
      wireDue { s.drivePins true false true with st := .pull } = wireDue s := by
  refine wireDue_of_passRest rfl ?_
  simp [wireEvents, tripleEvents, State.pins, passRest, hst, hs.headerStrobe hst]

/-- PULL makes the pass of the oldest word out of the debt for it (R158, R173). -/
theorem wireDue_pull (hst : s.st = .pull) {w : Word} {rest : List Word} (hq : s.queue = w :: rest) :
    wireDue { s with queue := rest, osr := w, cnt := 0, ph := .low, st := .bitloop0 } = wireDue s := by
  simp [wireDue, owedWords, State.bufLen, passRest, wordPulses, hst, hq]

/-- Each operation of the PSM puts on the wire what it takes off the debt. -/
theorem exec_psmOperation_wireDue (hs : PinInvariant s) {st : PsmState}
    (h : exec (psmOperation st) s = .next t) : wireEvents s t ++ wireDue t = wireDue s := by
  cases exec_psmOperation_move h with
  | hold => exact wireDue_of_pins rfl rfl
  | header hst => exact wireDue_header hs hst
  | pull hst hq => exact wireDue_of_pins rfl (wireDue_pull hst hq)
  | lowOne hst _ => exact wireDue_low rfl rfl rfl (passRest_bitLow _ (by simp [hst]))
  | lowReal hst hph => exact wireDue_low rfl rfl rfl (passRest_bitloop1_low hst hph)
  | lowZero hst _ => exact wireDue_low rfl rfl rfl (passRest_bitLow _ (by simp [hst]))
  | high hst hph hnext => subst hst; exact wireDue_bitHigh hs hph hnext

/-- PUSH moves a word within what is owed. -/
theorem execPush_wireDue (h : execPush s = .next t) : wireEvents s t ++ wireDue t = wireDue s := by
  rcases execPush_next h with ⟨hpush, w, hw, rfl⟩ | ⟨-, rfl⟩
  · obtain ⟨hx, hidx, -⟩ := State.feederEnabled_iff.1 hpush
    exact wireDue_of_pins rfl (wireDue_congr rfl (owedWords_push hx hidx hw))
  · exact wireDue_of_pins rfl rfl

/-- SETTLE discards what is not owed. -/
theorem execSettle_wireDue (h : execSettle s = .next t) :
    wireEvents s t ++ wireDue t = wireDue s := by
  rcases execSettle_next h with ⟨hsettle, rfl⟩ | ⟨-, rfl⟩
  · obtain ⟨hx, -⟩ := State.settleEnabled_iff.1 hsettle
    exact wireDue_of_pins rfl (wireDue_congr rfl (owedWords_settled hx))
  · exact wireDue_of_pins rfl rfl

end

/-! ## The obligations -/

/-- Settles O13: outside the grid the guards of LANEPACK and BUILD fail. -/
theorem frameReadOutsideGridFaults : Obligations.FrameReadOutsideGridFaults := by
  refine ⟨fun i k s hout => if_neg ?_, fun s hx hfit => ?_⟩
  · rintro ⟨hi, hfit⟩
    rcases hout with hn | hbad
    · omega
    · simp [hfit] at hbad
  · have hidle : ¬ s.txs ≠ .idle := not_not_intro hx
    exact (if_neg hidle).trans (if_neg (by simp [hfit]))

/-- Settles O15: the first guard of EMITWORD and BUILD is that no transmission is in flight, the second of EMITWORD
that the LED exists. -/
theorem bufferWritesStopOutsideBuild : Obligations.BufferWritesStopOutsideBuild := by
  refine ⟨fun i k p s hx hn => ?_, fun i k p s hx => ⟨if_pos hx, if_pos hx⟩⟩
  have hidle : ¬ s.txs ≠ .idle := not_not_intro hx
  exact (if_neg hidle).trans (if_neg (Nat.not_lt.2 hn))

/-- Settles O46, by the agent of the operation: of the host's only CONSTRUCT touches the queue, of the PSM's only PULL,
and the feeder's is PUSH. -/
theorem queueKeepsItsOrder : Obligations.QueueKeepsItsOrder := by
  intro i s t h
  rcases agent_cases i with hi | ⟨st, rfl⟩ | rfl
  · by_cases hc : ∃ c n slot, i = .construct c n slot
    · exact .inr (.inr (.inr hc))
    · obtain ⟨-, -, -, -, -, hq⟩ := hostLeavesPsmAlone i s t hi (by simpa using hc) h
      exact .inl hq
  · rcases exec_psmOperation_queue h with hq | ⟨rfl, hw⟩
    · exact .inl hq
    · exact .inr (.inr (.inl ⟨rfl, hw⟩))
  · rcases execPush_next h with ⟨-, v, hv, rfl⟩ | ⟨-, rfl⟩
    · exact .inr (.inl ⟨rfl, v, hv, rfl⟩)
    · exact .inl rfl

/-- Settles O47: in flight the PSM, the feeder or the host's SETTLE moves, and of these only the SETTLE that returns
writes the buffer. -/
theorem bufferUnchangedInFlight : Obligations.BufferUnchangedInFlight := by
  intro s t h hs ht
  rcases step_next h with rfl | ⟨i, u, v, hv, rfl, ⟨rfl, hmove⟩ | ⟨rest, -, -, hidle, -⟩⟩
  · rfl
  · rcases hmove with ⟨rfl, -⟩ | ⟨rfl, -⟩ | ⟨rfl, -, -⟩
    · exact (congrArg State.buf (exec_psmOperation_frame hv) :)
    · rcases execPush_next hv with ⟨-, w, -, rfl⟩ | ⟨-, rfl⟩ <;> rfl
    · rcases execSettle_next hv with ⟨-, rfl⟩ | ⟨-, rfl⟩
      · rw [State.deliverDrain_eq_self (State.drainDue_eq_false fun h => by cases h)] at ht
        exact absurd rfl ht
      · rfl
  · exact absurd hidle hs

/-- Settles O56: taking the turn keeps the invariant, and so does the operation that runs in it with the drain event
after it; a hold delivers no drain event. -/
theorem stepKeepsInvariant : Obligations.StepKeepsInvariant := by
  intro s t hs h
  rcases step_next h with rfl | ⟨i, u, v, hv, rfl, ⟨rfl, -⟩ | ⟨rest, -, -, -, rfl⟩⟩
  · rw [hs.takeTurn.stores.deliverDrain_eq]
    exact hs.takeTurn
  · exact hs.takeTurn.exec_deliverDrain hv
  · exact (hs.takeTurn.setProg rest).exec_deliverDrain hv

/-- Settles O58: with no call left it is a hold, the PSM, a push or SETTLE. Only the PSM moves a pin, and pays what it
sends; the push moves a word within what is owed, and after the drain the buffer owes nothing. -/
theorem wireDebtIsConserved : Obligations.WireDebtIsConserved := by
  intro s t hs hp h
  rcases step_next h with rfl | ⟨i, u, v, hv, rfl, ⟨rfl, hmove⟩ | ⟨rest, hcall, -⟩⟩
  · exact wireDue_of_pins rfl (wireDue_deliverDrain _)
  · rw [wireDue_deliverDrain, wireEvents_deliverDrain]
    change wireEvents s.takeTurn v ++ wireDue v = wireDue s.takeTurn
    rcases hmove with ⟨rfl, -⟩ | ⟨rfl, -⟩ | ⟨rfl, -, -⟩
    · exact exec_psmOperation_wireDue hs.takeTurn.pins hv
    · exact execPush_wireDue hv
    · exact execSettle_wireDue hv
  · cases hp.symm.trans hcall

end Sys2Proof.Machine
end

section
/-! PROOFS. Encoding (30_encoding.md): the state codes and their decoder (O50, O51), the lane counts CONSTRUCT rejects
(O35), and the bits of a word that never reach the pins (O29). -/

namespace Sys2Proof.Machine

section

variable {s s' : State}

/-! ## The state codes (R106, R108) -/

/-- The byte of a state's code decodes to the operation of that state, and the bytes after it are left. -/
theorem decode_stateCode (st : PsmState) (rest : List Byte) :
    decode ((stateCode st).setWidth 8 :: rest) = .ok (psmOperation st, rest) := by
  cases st <;> rfl

theorem decodeCode_reserved {code : BitVec 3} (h : 5 ≤ code.toNat) :
    decodeCode code = .error (.reservedStateCode code) := by
  revert code
  decide

/-- A byte with a reserved code is rejected by name, whatever follows it. -/
theorem decode_reserved {b : Byte} (h : 5 ≤ (b.setWidth 3).toNat) (rest : List Byte) :
    decode (b :: rest) = .error (.reservedStateCode (b.setWidth 3)) := by
  simp only [decode, decodeByte, decodeCode_reserved h]

/-- What has an encoding: the operation of a state of the PSM, and it is the byte of that state's code (R90). -/
theorem encode_eq_some_iff {i : Instr} {bytes : List Byte} :
    encode i = some bytes ↔
      ∃ st, i = psmOperation st ∧ bytes = [(stateCode st).setWidth 8] := by
  simp only [encode, Option.map_eq_some_iff, psmStateOf_eq_some_iff, eq_comm (b := bytes)]

theorem agent_psmOperation (st : PsmState) : (psmOperation st).agent = .psm := by
  cases st <;> rfl

/-! ## The operations of the PSM where they are enabled (R157 to R164) -/

theorem exec_header_of_psmAt (h : s.psmAt .header = true) :
    exec .header s = .next { s.drivePins true false true with st := .pull } := if_pos h

theorem exec_pull_of_psmAt_nil (h : s.psmAt .pull = true) (hq : s.queue = []) :
    exec .pull s = .next s := by
  simp only [exec, execPull, h, if_true, hq]

theorem exec_pull_of_psmAt_cons (h : s.psmAt .pull = true) {w : Word} {rest : List Word}
    (hq : s.queue = w :: rest) : exec .pull s =
      .next { s with queue := rest, osr := w, cnt := 0, ph := .low, st := .bitloop0 } := by
  simp only [exec, execPull, h, if_true, hq]

theorem exec_bitloop0_of_psmAt (h : s.psmAt .bitloop0 = true) :
    exec .bitloop0 s = .next (s.bitStep (s.bitLow true) .bitloop1) := if_pos h

theorem exec_bitloop1_of_psmAt (h : s.psmAt .bitloop1 = true) :
    exec .bitloop1 s =
      .next (s.bitStep { s.bitLow (osrTop s.osr) with osr := osrShift s.osr } .bitloop2) := if_pos h

theorem exec_bitloop2_of_psmAt (h : s.psmAt .bitloop2 = true) :
    exec .bitloop2 s = .next (s.bitStep (s.bitLow false) .header) := if_pos h

/-! ## The bits of a word that a pass sends (R109, R170) -/

/-- How many bits at the top of OSR the pass in progress has still to send as real bits (R162). -/
def State.realBitsLeft (s : State) : Nat :=
  match s.st, s.ph with
  | .bitloop0, _ => 8
  | .bitloop1, .low => 8 - s.cnt.toNat
  | .bitloop1, .high => 7 - s.cnt.toNat
  | _, _ => 0

/-- The eight real bits of a word are those of its plane byte (R68, R70). -/
theorem realBits_eq_of_planeOfWord_eq {w w' : Word} (h : planeOfWord w = planeOfWord w') :
    realBits w 8 = realBits w' 8 := by
  refine List.map_congr_left fun j hj => congrArg _ ?_
  have hj : j < 8 := List.mem_range.1 hj
  have hbit (v : Word) : (planeOfWord v).getLsbD (7 - j) = v.getLsbD (31 - j) := by
    rw [planeOfWord, BitVec.getLsbD_extractLsb', show 24 + (7 - j) = 31 - j by omega]
    simp only [show 7 - j < 8 by omega, decide_true, Bool.true_and]
  rw [← hbit w, ← hbit w', h]

/-- The high half of a bit leaves as many real bits as there were between the halves, also where one BITLOOP state ends
and the next begins (R159, R166). -/
theorem State.realBitsLeft_bitHigh (hph : s.ph = .high) {next : PsmState}
    (hnext : afterBits s.st = some next) : (s.bitHigh next).realBitsLeft = s.realBitsLeft := by
  cases hlast : s.lastBit with
  | true =>
    have hcnt := State.lastBit_iff.1 hlast
    cases hst : s.st with
    | header | pull => rw [hst] at hnext; cases hnext
    | bitloop0 | bitloop1 | bitloop2 =>
      rw [hst] at hnext
      cases hnext
      simp [State.realBitsLeft, hst, hph, hlast, hcnt]
  | false =>
    obtain ⟨-, hcnt⟩ := State.cnt_succ hlast
    cases hst : s.st with
    | bitloop1 =>
      have hleft : 8 - (s.cnt.toNat + 1) = 7 - s.cnt.toNat := by omega
      simp only [State.realBitsLeft, State.bitHigh_st, State.bitHigh_ph, State.bitHigh_cnt, hst, hph,
        hlast, Bool.false_eq_true, if_false, hcnt, hleft]
    | header | pull | bitloop0 | bitloop2 => simp [State.realBitsLeft, hst, hlast]

/-- Two states that differ at most in what no pass sends: in the queue the words agree in their plane bytes, in OSR the
bits still to be sent agree. -/
structure SameToSend (s s' : State) : Prop where
  elsewhere : s' = { s with osr := s'.osr, queue := s'.queue }
  queued : s'.queue.map planeOfWord = s.queue.map planeOfWord
  inShifter : realBits s'.osr s.realBitsLeft = realBits s.osr s.realBitsLeft

theorem SameToSend.queue_isEmpty (h : SameToSend s s') : s'.queue.isEmpty = s.queue.isEmpty := by
  simpa using congrArg List.isEmpty h.queued

theorem SameToSend.pins_eq (h : SameToSend s s') : s'.pins = s.pins := by
  rw [h.elsewhere]; rfl

theorem SameToSend.psmEnabled_eq (h : SameToSend s s') : s'.psmEnabled = s.psmEnabled := by
  have hempty := h.queue_isEmpty
  rw [h.elsewhere]
  simp only [State.psmEnabled, State.stalled, State.empty, hempty]

theorem SameToSend.nextTurn_eq (h : SameToSend s s') : s'.nextTurn = s.nextTurn := by
  rw [h.elsewhere]; rfl

theorem SameToSend.psmStepsNext_eq (h : SameToSend s s') : s'.psmStepsNext = s.psmStepsNext := by
  simp only [State.psmStepsNext, h.nextTurn_eq, h.psmEnabled_eq]

theorem SameToSend.takeTurn (h : SameToSend s s') : SameToSend s.takeTurn s'.takeTurn where
  elsewhere := by rw [h.elsewhere]; rfl
  queued := h.queued
  inShifter := h.inShifter

theorem SameToSend.deliverDrain (h : SameToSend s s') : SameToSend s.deliverDrain s'.deliverDrain where
  elsewhere := by rw [h.elsewhere]; rfl
  queued := h.queued
  inShifter := h.inShifter

/-- The high half of a bit touches neither OSR nor the queue; what the low half does is `hlow` (R159). -/
theorem SameToSend.bitStep (h : SameToSend s s') {low low' : State} {next : PsmState}
    (hlow : s.ph = .low → SameToSend low low') (hnext : afterBits s.st = some next) :
    SameToSend (s.bitStep low next) (s'.bitStep low' next) := by
  have hph' : s'.ph = s.ph := (congrArg State.ph h.elsewhere :)
  cases hph : s.ph with
  | low =>
    rw [State.bitStep_low _ _ hph, State.bitStep_low _ _ (hph'.trans hph)]
    exact hlow hph
  | high =>
    rw [State.bitStep_high _ _ hph, State.bitStep_high _ _ (hph'.trans hph)]
    exact {
      elsewhere := by rw [h.elsewhere]; rfl
      queued := h.queued
      inShifter := by rw [State.realBitsLeft_bitHigh hph hnext]; exact h.inShifter }

/-- The low half of a bit of 1s or of 0s leaves the real bits alone (R160, R164). -/
theorem SameToSend.bitLow (h : SameToSend s s') (d : Bool) (hst : s.st ≠ .bitloop1) :
    SameToSend (s.bitLow d) (s'.bitLow d) where
  elsewhere := by rw [h.elsewhere]; rfl
  queued := h.queued
  inShifter := by
    have hleft : (s.bitLow d).realBitsLeft = s.realBitsLeft := by
      cases hs : s.st with
      | bitloop1 => exact absurd hs hst
      | header | pull | bitloop0 | bitloop2 => simp [State.realBitsLeft, hs]
    rw [hleft]
    exact h.inShifter

/-- The low half of a real bit drives DATA with a bit that was still to be sent, so with the same one (R162). -/
theorem SameToSend.bitloop1_low (h : SameToSend s s') (hst : s.st = .bitloop1) (hph : s.ph = .low) :
    SameToSend { s.bitLow (osrTop s.osr) with osr := osrShift s.osr }
      { s'.bitLow (osrTop s'.osr) with osr := osrShift s'.osr } := by
  have hleft : s.realBitsLeft = 7 - s.cnt.toNat + 1 := by
    simp only [State.realBitsLeft, hst, hph, s.bits_left]
  have hle : 7 - s.cnt.toNat ≤ 31 := by omega
  have hbits := h.inShifter
  rw [hleft, realBits_succ _ hle, realBits_succ _ hle] at hbits
  obtain ⟨htop, hrest⟩ := List.cons.inj hbits
  exact {
    elsewhere := by rw [WireEvent.bit.inj htop, h.elsewhere]; rfl
    queued := h.queued
    inShifter := by simpa [State.realBitsLeft, hst] using hrest }

/-- The operation that ST selects keeps two states the same in what is sent. -/
theorem SameToSend.exec_psmOperation (h : SameToSend s s') :
    ∃ t t', exec (psmOperation s.st) s = .next t ∧ exec (psmOperation s.st) s' = .next t' ∧
      SameToSend t t' := by
  have hat' : s'.psmAt s.st = s.psmAt s.st := by rw [h.elsewhere]; rfl
  by_cases hat : s.psmAt s.st = true
  · rw [hat] at hat'
    generalize hst : s.st = st at hat hat' ⊢
    cases st with
    | header =>
      refine ⟨_, _, exec_header_of_psmAt hat, exec_header_of_psmAt hat', ?_, h.queued, rfl⟩
      rw [h.elsewhere]; rfl
    | pull =>
      have hqueued := h.queued
      cases hq : s.queue with
      | nil =>
        rw [hq, List.map_nil, List.map_eq_nil_iff] at hqueued
        exact ⟨s, s', exec_pull_of_psmAt_nil hat hq, exec_pull_of_psmAt_nil hat' hqueued, h⟩
      | cons w rest =>
        rw [hq, List.map_cons, List.map_eq_cons_iff] at hqueued
        obtain ⟨w', rest', hq', hw, hrest⟩ := hqueued
        refine ⟨_, _, exec_pull_of_psmAt_cons hat hq, exec_pull_of_psmAt_cons hat' hq', ?_, hrest,
          realBits_eq_of_planeOfWord_eq hw⟩
        rw [h.elsewhere]
    | bitloop0 =>
      have hlow := h.bitLow true (by simp [hst])
      exact ⟨_, _, exec_bitloop0_of_psmAt hat, exec_bitloop0_of_psmAt hat',
        h.bitStep (fun _ => hlow) (congrArg afterBits hst)⟩
    | bitloop1 =>
      exact ⟨_, _, exec_bitloop1_of_psmAt hat, exec_bitloop1_of_psmAt hat',
        h.bitStep (h.bitloop1_low hst) (congrArg afterBits hst)⟩
    | bitloop2 =>
      have hlow := h.bitLow false (by simp [hst])
      exact ⟨_, _, exec_bitloop2_of_psmAt hat, exec_bitloop2_of_psmAt hat',
        h.bitStep (fun _ => hlow) (congrArg afterBits hst)⟩
  · exact ⟨s, s', exec_psmOperation_of_not_psmAt hat,
      exec_psmOperation_of_not_psmAt fun hon => hat (hat'.symm.trans hon), h⟩

/-- So does a step in the PSM's turn. -/
theorem SameToSend.step_psm (h : SameToSend s s') (ha : s.nextTurn.agent = .psm) :
    ∃ t t', step s = .next t ∧ step s' = .next t' ∧ SameToSend t t' ∧ t.turns = s.turns.tail := by
  obtain ⟨t, t', ht, ht', hsame⟩ := h.takeTurn.exec_psmOperation
  have hst : s'.st = s.st := (congrArg State.st h.elsewhere :)
  have hturns : t.turns = s.turns.tail := (congrArg State.turns (exec_psmOperation_frame ht) :)
  refine ⟨t.deliverDrain, t'.deliverDrain, ?_, ?_, hsame.deliverDrain, hturns⟩
  · rw [Machine.step_psm ha]
    exact congrArg (onNext State.deliverDrain) ht
  · rw [Machine.step_psm (by rw [h.nextTurn_eq, ha]), hst]
    exact congrArg (onNext State.deliverDrain) ht'

/-- Over any number of turns of the PSM, two states that differ in no bit to be sent show the same pins. -/
theorem SameToSend.pinTrace_eq {k : Nat} {later : List Turn} (h : SameToSend s s')
    (hturns : s.turns = psmTurns k ++ later) : pinTrace k s = pinTrace k s' := by
  induction k generalizing s s' with
  | zero => rfl
  | succ k ih =>
    have hcons : s.turns = { agent := .psm, dt := 0 } :: (psmTurns k ++ later) := hturns
    have ha : s.nextTurn.agent = .psm := by rw [State.nextTurn, hcons]
    obtain ⟨t, t', ht, ht', hsame, htail⟩ := h.step_psm ha
    rw [hcons, List.tail_cons] at htail
    simp only [pinTrace, ht, ht', h.psmStepsNext_eq, hsame.pins_eq, ih hsame htail]

/-- The states in which a pass of two words with one plane byte begins differ in no bit to be sent (R109). -/
theorem sameToSend_of_planeOfWord_eq {w w' : Word} {rest : List Word} (hq : s.queue = w :: rest)
    (hw : planeOfWord w = planeOfWord w') : SameToSend s { s with queue := w' :: rest } where
  elsewhere := rfl
  queued := by simp [hq, hw]
  inShifter := rfl

end

/-! ## The obligations -/

/-- Settles O29: what the two runs differ in is never sent, and each step of the PSM keeps it so. -/
theorem lowBitsNeverReachPins : Obligations.LowBitsNeverReachPins := by
  intro s w w' rest later hturns _ _ hq hw
  exact (sameToSend_of_planeOfWord_eq hq hw).pinTrace_eq hturns

/-- Settles O35: the first guard of CONSTRUCT is the number of lanes. -/
theorem constructRejectsTooManyLanes : Obligations.ConstructRejectsTooManyLanes := by
  intro c n slot s hc
  have hlanes : Config.lanes < c := hc
  exact if_pos hlanes

/-- Settles O50: the five codes of the states, then the three reserved ones. -/
theorem stateCodesDecode : Obligations.StateCodesDecode :=
  ⟨decode_stateCode .header [], decode_stateCode .pull [], decode_stateCode .bitloop0 [],
    decode_stateCode .bitloop1 [], decode_stateCode .bitloop2 [],
    decode_reserved (b := 0x05) (by decide) [], decode_reserved (b := 0x06) (by decide) [],
    decode_reserved (b := 0x07) (by decide) []⟩

/-- Settles O51: what is encoded is the code of a state, which decodes to the operation of that state. -/
theorem decodeInvertsEncode : Obligations.DecodeInvertsEncode := by
  refine fun i => ⟨fun bytes rest henc => ?_, fun hsome => ?_, fun hpsm => ?_⟩
  · obtain ⟨st, rfl, rfl⟩ := encode_eq_some_iff.1 henc
    exact decode_stateCode st rest
  · obtain ⟨bytes, henc⟩ := Option.isSome_iff_exists.1 hsome
    obtain ⟨st, rfl, -⟩ := encode_eq_some_iff.1 henc
    exact agent_psmOperation st
  · obtain ⟨st, rfl⟩ := exists_psmOperation_of_agent hpsm
    exact Option.isSome_iff_exists.2 ⟨_, encode_eq_some_iff.2 ⟨st, rfl, rfl⟩⟩

end Sys2Proof.Machine
end

section
/-! PROOFS. The bit-plane transpose (40_transpose.md): TRANSPOSE8 and its laws (O1, O8 to O11), the five reference steps
(O2 to O6), and that in a row they compute TRANSPOSE8 (O7). -/

namespace Sys2Proof.Machine

section

variable {s t : State}

/-! ## TRANSPOSE8 and its laws (R120, R121, R123) -/

theorem exec_transpose8_eq_next_iff : exec .transpose8 s = .next t ↔ t = s.transpose :=
  ⟨fun h => (Host.Outcome.next.inj h).symm, fun h => congrArg Host.Outcome.next h.symm⟩

/-- Array registers with equal bits are equal. -/
theorem bytes_ext_bits {a b : Bytes8}
    (h : ∀ j p : Fin 8, (entry a j).getLsbD p.val = (entry b j).getLsbD p.val) : a = b :=
  bytes_ext fun j => byte_ext (h j)

@[simp] theorem xorBytes_bit (a b : Bytes8) (j p : Fin 8) :
    (entry (xorBytes a b) j).getLsbD p.val =
      ((entry a j).getLsbD p.val ^^ (entry b j).getLsbD p.val) := by
  rw [xorBytes, entry_bytesOf, BitVec.getLsbD_xor]

/-- Law (a): row and column exchanged twice are where they were. -/
theorem transposeBytes_transposeBytes (a : Bytes8) : transposeBytes (transposeBytes a) = a :=
  bytes_ext_bits fun j p => by rw [transposeBytes_bit, transposeBytes_bit]

/-- Law (c). -/
theorem transposeBytes_xorBytes (a b : Bytes8) :
    transposeBytes (xorBytes a b) = xorBytes (transposeBytes a) (transposeBytes b) :=
  bytes_ext_bits fun p j => by simp only [transposeBytes_bit, xorBytes_bit]

/-- The number of set bits as a sum over the rows and columns of the bit matrix. -/
theorem setBits_eq_sum (a : Bytes8) :
    setBits a = ∑ j : Fin 8, ∑ p : Fin 8, if (entry a j).getLsbD p.val = true then 1 else 0 := by
  rw [setBits, Fin.sum_univ_def]
  refine congrArg List.sum (List.map_congr_left fun j _ => ?_)
  rw [← Finset.card_filter]
  simp [Finset.card, Finset.filter, Fin.univ_def]

/-- Law (d): the sum by rows is the sum by columns. -/
theorem setBits_transposeBytes (a : Bytes8) : setBits (transposeBytes a) = setBits a := by
  simp only [setBits_eq_sum, transposeBytes_bit]
  exact Finset.sum_comm

/-- Law (e). -/
theorem transposeBytes_eq_self_iff (a : Bytes8) :
    transposeBytes a = a ↔
      ∀ j p : Fin 8, (entry a j).getLsbD p.val = (entry a p).getLsbD j.val := by
  constructor
  · intro h j p
    calc (entry a j).getLsbD p.val
        = (entry (transposeBytes a) j).getLsbD p.val := by rw [h]
      _ = (entry a p).getLsbD j.val := transposeBytes_bit a j p
  · exact fun h => bytes_ext_bits fun j p => by rw [transposeBytes_bit, h p j]

/-! ## The masked swap (R116, R125, R126) -/

theorem getLsbD_swapTemp (v : Word) (dist : Nat) (mask : Word) (r : Nat) :
    (swapTemp v dist mask).getLsbD r =
      ((v.getLsbD r ^^ v.getLsbD (dist + r)) && mask.getLsbD r) := by
  rw [swapTemp, BitVec.getLsbD_and, BitVec.getLsbD_xor, BitVec.getLsbD_ushiftRight]

theorem getLsbD_maskedSwap (v : Word) (dist : Nat) (mask : Word) (r : Nat) :
    (maskedSwap v dist mask).getLsbD r =
      (v.getLsbD r ^^ (swapTemp v dist mask).getLsbD r ^^
        (decide (r < 32) && !decide (r < dist) && (swapTemp v dist mask).getLsbD (r - dist))) := by
  rw [maskedSwap, BitVec.getLsbD_xor, BitVec.getLsbD_xor, BitVec.getLsbD_shiftLeft]

/-- The set bits of `mask` are `qs`, and the partners at distance `dist` are other bits of the word. -/
structure SwapMask (qs : List Nat) (dist : Nat) (mask : Word) : Prop where
  bits : ∀ q < 32, mask.getLsbD q = decide (q ∈ qs)
  partnerInWord : ∀ q ∈ qs, q + dist < 32
  partnerApart : ∀ q ∈ qs, q + dist ∉ qs

theorem swapMask_seven : SwapMask [1, 3, 5, 7, 17, 19, 21, 23] 7 mask7 where
  bits := by decide
  partnerInWord := by decide
  partnerApart := by decide

theorem swapMask_fourteen : SwapMask [2, 3, 6, 7, 10, 11, 14, 15] 14 mask14 where
  bits := by decide
  partnerInWord := by decide
  partnerApart := by decide

section

variable {qs : List Nat} {dist : Nat} {mask : Word}

theorem SwapMask.getLsbD_of_mem (h : SwapMask qs dist mask) {q : Nat} (hq : q ∈ qs) :
    mask.getLsbD q = true := by
  have := h.partnerInWord q hq
  rw [h.bits q (by omega), decide_eq_true hq]

theorem SwapMask.getLsbD_of_not_mem (h : SwapMask qs dist mask) {q : Nat} (hq : q ∉ qs) :
    mask.getLsbD q = false := by
  by_cases hlt : q < 32
  · rw [h.bits q hlt, decide_eq_false hq]
  · exact BitVec.getLsbD_of_ge mask q (Nat.not_lt.1 hlt)

/-- The temporary is the difference of the two partners at a set bit of the mask, and 0 elsewhere. -/
theorem SwapMask.swapTemp_of_mem (h : SwapMask qs dist mask) (v : Word) {q : Nat} (hq : q ∈ qs) :
    (swapTemp v dist mask).getLsbD q = (v.getLsbD q ^^ v.getLsbD (q + dist)) := by
  rw [getLsbD_swapTemp, h.getLsbD_of_mem hq, Bool.and_true, Nat.add_comm]

theorem SwapMask.swapTemp_of_not_mem (h : SwapMask qs dist mask) (v : Word) {q : Nat}
    (hq : q ∉ qs) : (swapTemp v dist mask).getLsbD q = false := by
  rw [getLsbD_swapTemp, h.getLsbD_of_not_mem hq, Bool.and_false]

/-- Shifted up by the distance, the temporary is 0 at every bit that is no set bit's partner. -/
theorem SwapMask.shifted_swapTemp_of_not_mem (h : SwapMask qs dist mask) (v : Word) {r : Nat}
    (hr : r ∉ qs.map (· + dist)) :
    (!decide (r < dist) && (swapTemp v dist mask).getLsbD (r - dist)) = false := by
  by_cases hlt : r < dist
  · simp [hlt]
  · have hnot : r - dist ∉ qs := fun hmem =>
      hr (List.mem_map.2 ⟨_, hmem, Nat.sub_add_cancel (Nat.not_lt.1 hlt)⟩)
    rw [h.swapTemp_of_not_mem v hnot, Bool.and_false]

/-- A masked swap exchanges each set bit of its mask with its partner: adding their difference to both does. -/
theorem SwapMask.exchangesBits (h : SwapMask qs dist mask) (v : Word) :
    exchangesBits qs dist v (maskedSwap v dist mask) := by
  refine ⟨fun q hq => ⟨?_, ?_⟩, fun r hr hpartner => ?_⟩
  · have hpartner : q ∉ qs.map (· + dist) := fun hmem => by
      obtain ⟨q', hq', rfl⟩ := List.mem_map.1 hmem
      exact h.partnerApart q' hq' hq
    rw [getLsbD_maskedSwap, Bool.and_assoc, h.shifted_swapTemp_of_not_mem v hpartner,
      h.swapTemp_of_mem v hq]
    simp
  · rw [getLsbD_maskedSwap, h.swapTemp_of_not_mem v (h.partnerApart q hq), Nat.add_sub_cancel,
      h.swapTemp_of_mem v hq]
    simp [h.partnerInWord q hq, Bool.xor_comm (v.getLsbD q)]
  · rw [getLsbD_maskedSwap, Bool.and_assoc, h.shifted_swapTemp_of_not_mem v hpartner,
      h.swapTemp_of_not_mem v hr]
    simp

end

/-! ## The exchange of nibbles (R127) -/

theorem getLsbD_maskHigh : ∀ i < 32, maskHigh.getLsbD i = decide (4 ≤ i % 8) := by decide

theorem getLsbD_maskLow : ∀ i < 32, maskLow.getLsbD i = !decide (4 ≤ i % 8) := by decide

theorem getLsbD_nibbleTemp (x y : Word) {i : Nat} (hi : i < 32) :
    (nibbleTemp x y).getLsbD i = if 4 ≤ i % 8 then x.getLsbD i else y.getLsbD (4 + i) := by
  simp only [nibbleTemp, BitVec.getLsbD_or, BitVec.getLsbD_and, BitVec.getLsbD_ushiftRight,
    getLsbD_maskHigh i hi, getLsbD_maskLow i hi]
  split <;> simp [*]

theorem getLsbD_nibbleY (x y : Word) {i : Nat} (hi : i < 32) :
    (nibbleY x y).getLsbD i = if 4 ≤ i % 8 then x.getLsbD (i - 4) else y.getLsbD i := by
  simp only [nibbleY, BitVec.getLsbD_or, BitVec.getLsbD_and, BitVec.getLsbD_shiftLeft,
    getLsbD_maskHigh i hi, getLsbD_maskLow i hi]
  by_cases h : 4 ≤ i % 8
  · have hlt : ¬ i < 4 := by omega
    simp [h, hi, hlt]
  · simp [h]

/-! ## The reference steps as steps on the registers (R124, R127, R128) -/

/-- What PACK leaves (R124). -/
def State.packXY (s : State) : State :=
  { s with
    x := packWord (entry s.inp 7) (entry s.inp 6) (entry s.inp 5) (entry s.inp 4)
    y := packWord (entry s.inp 3) (entry s.inp 2) (entry s.inp 1) (entry s.inp 0) }

/-- What NIBX leaves (R127). -/
def State.nibX (s : State) : State :=
  { s with t := nibbleTemp s.x s.y, x := nibbleTemp s.x s.y, y := nibbleY s.x s.y }

/-- What UNPACK leaves (R128). -/
def State.unpackXY (s : State) : State :=
  { s with
    pl := ⟨wordByte s.y 0, wordByte s.y 1, wordByte s.y 2, wordByte s.y 3,
      wordByte s.x 0, wordByte s.x 1, wordByte s.x 2, wordByte s.x 3⟩ }

theorem exec_pack (s : State) : exec .pack s = .next s.packXY := rfl
theorem exec_swap7 (s : State) : exec .swap7 s = .next (s.swapXY 7 mask7) := rfl
theorem exec_swap14 (s : State) : exec .swap14 s = .next (s.swapXY 14 mask14) := rfl
theorem exec_nibx (s : State) : exec .nibx s = .next s.nibX := rfl
theorem exec_unpack (s : State) : exec .unpack s = .next s.unpackXY := rfl

theorem packWord_eq_append (a b c d : Byte) : packWord a b c d = a ++ b ++ c ++ d := by
  rw [← BitVec.setWidth_eq (a ++ b ++ c ++ d),
    BitVec.setWidth_append_append_append_eq_shiftLeft_setWidth_or]
  rfl

/-- Byte `k` of a packed word is the byte put there (R72). -/
theorem wordByte_packWord (a b c d : Byte) :
    wordByte (packWord a b c d) 3 = a ∧ wordByte (packWord a b c d) 2 = b ∧
      wordByte (packWord a b c d) 1 = c ∧ wordByte (packWord a b c d) 0 = d := by
  rw [packWord_eq_append]
  refine ⟨?_, ?_, ?_, ?_⟩
  · exact (BitVec.extractLsb'_append_eq_of_le (start := 24) (by decide)).trans
      ((BitVec.extractLsb'_append_eq_of_le (start := 16) (by decide)).trans
        BitVec.extractLsb'_append_eq_left)
  · exact (BitVec.extractLsb'_append_eq_of_le (start := 16) (by decide)).trans
      ((BitVec.extractLsb'_append_eq_of_le (start := 8) (by decide)).trans
        BitVec.extractLsb'_append_eq_right)
  · exact (BitVec.extractLsb'_append_eq_of_le (start := 8) (by decide)).trans
      BitVec.extractLsb'_append_eq_right
  · exact BitVec.extractLsb'_append_eq_right

theorem getLsbD_wordByte (v : Word) (a : Nat) (b : Fin 8) :
    (wordByte v a).getLsbD b.val = v.getLsbD (8 * a + b.val) := by
  rw [wordByte, BitVec.getLsbD_extractLsb', decide_eq_true b.isLt, Bool.true_and]

/-! ## The bit matrix in the work registers (R96) -/

/-- The work register that holds row `j` of the bit matrix: rows 0 to 3 are in Y, rows 4 to 7 in X (R96). -/
def State.workWord (s : State) (j : Fin 8) : Word := if j.val < 4 then s.y else s.x

/-- Bit `b` of row `j` of the bit matrix in X and Y (R96). -/
def State.workBit (s : State) (j b : Fin 8) : Bool :=
  (s.workWord j).getLsbD (8 * (j.val % 4) + b.val)

/-- PACK puts IN into the matrix row by row. -/
theorem State.packXY_workBit (s : State) (j b : Fin 8) :
    s.packXY.workBit j b = (entry s.inp j).getLsbD b.val := by
  have hrow : wordByte (s.packXY.workWord j) (j.val % 4) = entry s.inp j := by
    obtain ⟨h7, h6, h5, h4⟩ :=
      wordByte_packWord (entry s.inp 7) (entry s.inp 6) (entry s.inp 5) (entry s.inp 4)
    obtain ⟨h3, h2, h1, h0⟩ :=
      wordByte_packWord (entry s.inp 3) (entry s.inp 2) (entry s.inp 1) (entry s.inp 0)
    fin_cases j
    exacts [h0, h1, h2, h3, h4, h5, h6, h7]
  rw [State.workBit, ← getLsbD_wordByte, hrow]

/-- UNPACK reads PL out of the matrix row by row. -/
theorem State.unpackXY_pl_bit (s : State) (j b : Fin 8) :
    (entry s.unpackXY.pl j).getLsbD b.val = s.workBit j b := by
  have hrow : entry s.unpackXY.pl j = wordByte (s.workWord j) (j.val % 4) := by
    fin_cases j <;> rfl
  rw [hrow, getLsbD_wordByte, State.workBit]

/-! ## Each swap exchanges one binary digit of the row with that of the column -/

/-- `a` with its binary digit `d` replaced by that of `b`. -/
def takeDigit (d : Nat) (a b : Fin 8) : Fin 8 :=
  if a.val.testBit d = b.val.testBit d then a else a ^^^ Fin.ofNat 8 (2 ^ d)

/-- Row and column with all three binary digits exchanged have changed places. -/
theorem takeDigit_all : ∀ j b : Fin 8,
    takeDigit 0 (takeDigit 1 (takeDigit 2 j b) (takeDigit 2 b j))
      (takeDigit 1 (takeDigit 2 b j) (takeDigit 2 j b)) = b := by
  decide

/-- From `s` to `t` digit `d` of the row and digit `d` of the column have been exchanged. -/
def ExchangesDigit (d : Nat) (s t : State) : Prop :=
  ∀ j b : Fin 8, t.workBit j b = s.workBit (takeDigit d j b) (takeDigit d b j)

/-- Where a bit of a word comes from when the bits `qs` are exchanged with their partners. -/
def swapSource (qs : List Nat) (dist r : Nat) : Nat :=
  if r ∈ qs then r + dist else if r ∈ qs.map (· + dist) then r - dist else r

theorem getLsbD_of_exchangesBits {qs : List Nat} {dist : Nat} {v v' : Word}
    (h : exchangesBits qs dist v v') (r : Nat) :
    v'.getLsbD r = v.getLsbD (swapSource qs dist r) := by
  obtain ⟨hswap, hkeep⟩ := h
  rw [swapSource]
  split
  case isTrue hr => exact (hswap r hr).1
  case isFalse hr =>
    split
    case isTrue hpartner =>
      obtain ⟨q, hq, rfl⟩ := List.mem_map.1 hpartner
      rw [Nat.add_sub_cancel]
      exact (hswap q hq).2
    case isFalse hpartner => exact hkeep r hr hpartner

/-- A masked swap that keeps each row's word exchanges a digit, if it does so to the positions in a word. -/
theorem SwapMask.exchangesDigit {qs : List Nat} {dist d : Nat} {mask : Word}
    (h : SwapMask qs dist mask)
    (hword : ∀ j b : Fin 8, (takeDigit d j b).val < 4 ↔ j.val < 4)
    (hbit : ∀ j b : Fin 8, swapSource qs dist (8 * (j.val % 4) + b.val) =
      8 * ((takeDigit d j b).val % 4) + (takeDigit d b j).val) (s : State) :
    ExchangesDigit d s (s.swapXY dist mask) := by
  intro j b
  have hswap : (s.swapXY dist mask).workWord j = maskedSwap (s.workWord j) dist mask :=
    (apply_ite (maskedSwap · dist mask) _ _ _).symm
  have hsame : s.workWord (takeDigit d j b) = s.workWord j := by
    simp only [State.workWord, hword]
  rw [State.workBit, hswap, getLsbD_of_exchangesBits (h.exchangesBits _), hbit, State.workBit,
    hsame]

theorem swapXY_seven_exchangesDigit (s : State) : ExchangesDigit 0 s (s.swapXY 7 mask7) :=
  swapMask_seven.exchangesDigit (by decide) (by decide) s

theorem swapXY_fourteen_exchangesDigit (s : State) : ExchangesDigit 1 s (s.swapXY 14 mask14) :=
  swapMask_fourteen.exchangesDigit (by decide) (by decide) s

theorem takeDigit_two_val : ∀ a b : Fin 8, (takeDigit 2 a b).val = 4 * (b.val / 4) + a.val % 4 := by
  decide

/-- NIBX exchanges the last digit, which for the row chooses between Y and X. -/
theorem nibX_exchangesDigit (s : State) : ExchangesDigit 2 s s.nibX := by
  intro j b
  have hi : 8 * (j.val % 4) + b.val < 32 := by omega
  have hhigh : 4 ≤ (8 * (j.val % 4) + b.val) % 8 ↔ ¬ b.val < 4 := by omega
  have hrow : 4 * (b.val / 4) + j.val % 4 < 4 ↔ b.val < 4 := by omega
  simp only [State.workBit, State.workWord, takeDigit_two_val, hrow, State.nibX]
  by_cases hj : j.val < 4
  · rw [if_pos hj, getLsbD_nibbleY s.x s.y hi]
    simp only [hhigh, ite_not]
    split_ifs <;> congr 1 <;> omega
  · rw [if_neg hj, getLsbD_nibbleTemp s.x s.y hi]
    simp only [hhigh, ite_not]
    split_ifs <;> congr 1 <;> omega

/-- The five reference steps in a row. -/
theorem execAll_referenceSteps (s : State) :
    execAll [.pack, .swap7, .swap14, .nibx, .unpack] s =
      .next (((s.packXY.swapXY 7 mask7).swapXY 14 mask14).nibX).unpackXY := by
  simp only [execAll, exec_pack, exec_swap7, exec_swap14, exec_nibx, exec_unpack]

/-- The reference steps exchange all three digits between PACK and UNPACK, which is the transpose (R130). -/
theorem referenceSteps_pl (s : State) :
    (((s.packXY.swapXY 7 mask7).swapXY 14 mask14).nibX).unpackXY.pl = transposeBytes s.inp :=
  bytes_ext_bits fun p j => by
    rw [State.unpackXY_pl_bit, nibX_exchangesDigit, swapXY_fourteen_exchangesDigit,
      swapXY_seven_exchangesDigit, State.packXY_workBit, takeDigit_all, takeDigit_all,
      transposeBytes_bit]

end

/-! ## The obligations -/

/-- Settles O1: the bits of the transposed array; PL alone is written. -/
theorem transposeMovesEveryBit : Obligations.TransposeMovesEveryBit :=
  fun s => ⟨s.transpose, rfl, transposeBytes_bit s.inp, rfl⟩

/-- Settles O2: shifting and joining four bytes is writing them one after the other. -/
theorem packJoinsLaneArray : Obligations.PackJoinsLaneArray := by
  intro s
  rw [exec_pack, State.packXY, packWord_eq_append, packWord_eq_append]

/-- Settles O3: 00AA00AA is the mask of the eight exchanged bits at distance 7. -/
theorem swapSevenExchangesBits : Obligations.SwapSevenExchangesBits :=
  fun s => ⟨s.swapXY 7 mask7, exec_swap7 s, fun _ htx => htx ▸ rfl, fun _ hty => hty ▸ ⟨rfl, rfl⟩,
    swapMask_seven.exchangesBits s.x, swapMask_seven.exchangesBits s.y, rfl⟩

/-- Settles O4: 0000CCCC is the mask of the eight exchanged bits at distance 14. -/
theorem swapFourteenExchangesBits : Obligations.SwapFourteenExchangesBits :=
  fun s => ⟨s.swapXY 14 mask14, exec_swap14 s, fun _ htx => htx ▸ rfl, fun _ hty => hty ▸ ⟨rfl, rfl⟩,
    swapMask_fourteen.exchangesBits s.x, swapMask_fourteen.exchangesBits s.y, rfl⟩

/-- Settles O5: the bits of the two formulas, in the low and in the high nibble of a byte. -/
theorem nibxExchangesNibbles : Obligations.NibxExchangesNibbles := by
  intro s
  refine ⟨s.nibX, exec_nibx s, rfl, rfl, rfl, fun a ha b hb => ?_, rfl⟩
  have hlow : ¬ 4 ≤ (8 * a + b) % 8 := by omega
  have hhigh : 4 ≤ (8 * a + 4 + b) % 8 := by omega
  refine ⟨?_, ?_, ?_, ?_⟩
  · exact (getLsbD_nibbleTemp s.x s.y (by omega)).trans ((if_neg hlow).trans (by congr 1; omega))
  · exact (getLsbD_nibbleY s.x s.y (by omega)).trans ((if_pos hhigh).trans (by congr 1; omega))
  · exact (getLsbD_nibbleTemp s.x s.y (by omega)).trans (if_pos hhigh)
  · exact (getLsbD_nibbleY s.x s.y (by omega)).trans (if_neg hlow)

/-- Settles O6: each entry of PL is the byte of X or Y at its position. -/
theorem unpackSplitsWorkWords : Obligations.UnpackSplitsWorkWords :=
  fun s => ⟨s.unpackXY, exec_unpack s, rfl, rfl, rfl, rfl, rfl, rfl, rfl, rfl, rfl⟩

/-- Settles O7: the three swaps exchange the three binary digits of row and column. -/
theorem referenceStepsEqualTranspose : Obligations.ReferenceStepsEqualTranspose := by
  intro s u hu
  rw [exec_transpose8_eq_next_iff.1 hu]
  exact ⟨_, execAll_referenceSteps s, referenceSteps_pl s⟩

/-- Settles O8 (law (a)). -/
theorem transposeTwiceIsIdentity : Obligations.TransposeTwiceIsIdentity := by
  intro s t u ht hu
  rw [exec_transpose8_eq_next_iff.1 hu, exec_transpose8_eq_next_iff.1 ht]
  exact transposeBytes_transposeBytes s.inp

/-- Settles O9 (law (c)). -/
theorem transposeIsXorLinear : Obligations.TransposeIsXorLinear := by
  intro s ta tb tx a b ha hb hx
  rw [exec_transpose8_eq_next_iff.1 ha, exec_transpose8_eq_next_iff.1 hb,
    exec_transpose8_eq_next_iff.1 hx]
  exact transposeBytes_xorBytes a b

/-- Settles O10 (law (d)). -/
theorem transposeKeepsSetBitCount : Obligations.TransposeKeepsSetBitCount := by
  intro s t ht
  rw [exec_transpose8_eq_next_iff.1 ht]
  exact setBits_transposeBytes s.inp

/-- Settles O11 (law (e)). -/
theorem transposeFixesSymmetricInputs : Obligations.TransposeFixesSymmetricInputs := by
  intro s t ht
  rw [exec_transpose8_eq_next_iff.1 ht]
  exact transposeBytes_eq_self_iff s.inp

end Sys2Proof.Machine
end

section
/-! PROOFS. FrameBuilder (41_framebuilder.md): LANEPACK's lane array (O12), EMITWORD's word (O14), the buffer BUILD
leaves (O16 to O19) and what an accepted TRANSMIT owes the wire (O60). -/

namespace Sys2Proof.Machine

section

variable {s t : State}

/-! ## The operations of the builder where their guards hold (R140, R142, R144) -/

theorem exec_lanepack_of_frameFits {i : Nat} (k : Fin 3) (hi : i < s.n)
    (hfit : frameFits s.frame s.c s.n = true) : exec (.lanepack i k) s = .next (s.packLanes i k) :=
  if_pos ⟨hi, hfit⟩

theorem exec_emitword_of_idle {i : Nat} (k : Fin 3) (p : Fin 8) (hx : s.txs = .idle) (hi : i < s.n) :
    exec (.emitword i k p) s = .next (s.emitWord i k p) :=
  (if_neg (not_not_intro hx)).trans (if_pos hi)

theorem exec_build_of_idle (hx : s.txs = .idle) (hfit : frameFits s.frame s.c s.n = true) :
    exec .build s = .next s.buildAll :=
  (if_neg (not_not_intro hx)).trans (if_pos hfit)

/-- The buffer of a BUILD that answers is the one of the closed form (R143). -/
theorem exec_build_buf (h : exec .build s = .next t) :
    t.buf = bufferPrefix s.frame s.c (24 * s.n) := by
  obtain ⟨-, -, rfl⟩ := execBuild_next h
  obtain ⟨-, -, hbuf⟩ := s.buildAll_spec
  exact hbuf

/-! ## The lane array of a grid (R140) -/

theorem frameRead_eq_some_laneArray {f : Frame} {c n i : Nat} (hfit : frameFits f c n = true)
    (hi : i < n) (k : Fin 3) {j : Fin 8} (hj : 7 - j.val < c) :
    frameRead f (7 - j.val) i (channelOf k) = some (entry (laneArray f c i k) j) := by
  obtain ⟨v, hv⟩ := Option.isSome_iff_exists.1 (frameRead_isSome hfit hj hi (channelOf k))
  rw [laneArray_entry, if_pos hj, hv, Option.getD_some]

/-! ## The bits of the closed form's word (R143, R146) -/

/-- The word of a position, bit by bit: bit `31 - lane` is the lane's. -/
theorem getLsbD_frameWord_bufIndex (f : Frame) (c i : Nat) (k : Fin 3) (p : Fin 8) {b : Nat}
    (hb : b < 32) : (frameWord f c (bufIndex i k p)).getLsbD b =
      (decide (24 ≤ b ∧ 31 - b < c) && channelBit f (31 - b) i k p) := by
  simp only [frameWord, indexPos_bufIndex, wordOfPlane_bit]
  by_cases h24 : 24 ≤ b
  · have hlane : 7 - (b - 24) = 31 - b := by omega
    have hbit := byteOfBits_bit (fun j => 7 - j.val < c && channelBit f (7 - j.val) i k p)
      ⟨b - 24, by omega⟩
    simp only [hlane] at hbit
    simp [h24, hbit]
  · simp [h24]

/-- Below the top `c` bits a word of the closed form is 0. -/
theorem getLsbD_frameWord_of_lt (f : Frame) {c b : Nat} (a : Nat) (hb : b < 32 - c) :
    (frameWord f c a).getLsbD b = false := by
  have hnot : ¬ (24 ≤ b ∧ 31 - b < c) := by omega
  rw [← bufIndex_indexPos a, getLsbD_frameWord_bufIndex _ _ _ _ _ (by omega), decide_eq_false hnot,
    Bool.false_and]

/-- A word of which only bit 31 can be set is one of two. -/
theorem eq_zero_or_eq_top_of_getLsbD {w : Word} (h : ∀ b < 31, w.getLsbD b = false) :
    w = 0x00000000 ∨ w = 0x80000000 := by
  have heq : ∀ v : Word, (∀ b < 31, v.getLsbD b = false) → w.getLsbD 31 = v.getLsbD 31 → w = v := by
    refine fun v hv htop => BitVec.eq_of_getLsbD_eq fun b hb => ?_
    rcases Nat.lt_succ_iff_lt_or_eq.1 hb with hlt | rfl
    · rw [h b hlt, hv b hlt]
    · exact htop
  cases htop : w.getLsbD 31 with
  | false => exact .inl (heq _ (by decide) htop)
  | true => exact .inr (heq _ (by decide) htop)

/-! ## The words of the buffer in order (R145, R173) -/

theorem State.bufLen_eq (s : State) : s.bufLen = 24 * s.n := rfl

theorem mem_bufferPrefix_iff {f : Frame} {c m : Nat} {e : Nat × Word} :
    e ∈ bufferPrefix f c m ↔ ∃ a < m, (a, frameWord f c a) = e := by
  simp [bufferPrefix]

theorem bufferPrefix_map_fst (f : Frame) (c m : Nat) :
    (bufferPrefix f c m).map Prod.fst = List.range m := by
  rw [bufferPrefix, List.map_map]
  exact List.map_id _

/-- Reading a buffer of the closed form index by index gives its words. -/
theorem bufferPrefix_filterMap_read (f : Frame) (c m : Nat) :
    ((List.range m).filterMap fun a => Memory.read (bufferPrefix f c m) a) =
      (List.range m).map (frameWord f c) := by
  rw [← List.filterMap_eq_map]
  refine List.filterMap_congr fun a ha => ?_
  rw [bufferPrefix_read, if_pos (List.mem_range.1 ha)]
  rfl

/-- What an accepted TRANSMIT writes, at once (R192 steps 1 and 2). -/
theorem execTransmit_eq {f : Frame} (h : execTransmit f s = .next t) :
    s.txs = .idle ∧ ∃ inp pl, t = { s with
      frame := f, inp := inp, pl := pl, buf := bufferPrefix f s.c (24 * s.n), pos := none
      idx := 0, txs := .feed } := by
  obtain ⟨hx, -, -, rfl⟩ := execTransmit_next h
  obtain ⟨inp, pl, hall⟩ := State.buildAll_eq { s with frame := f }
  exact ⟨hx, inp, pl, by rw [hall]; rfl⟩

/-- An accepted TRANSMIT owes, after the words queued, those of its frame (R79 to R81). -/
theorem owedWords_transmit {f : Frame} (h : execTransmit f s = .next t) :
    owedWords t = owedWords s ++ (List.range (24 * s.n)).map (frameWord f s.c) := by
  obtain ⟨hx, inp, pl, rfl⟩ := execTransmit_eq h
  have hqueue : owedWords s = s.queue := by simp [owedWords, hx]
  rw [hqueue, ← bufferPrefix_filterMap_read]
  simp [owedWords, State.bufLen_eq]

/-- TRANSMIT leaves the pass in progress alone (R26). -/
theorem passRest_transmit {f : Frame} (h : execTransmit f s = .next t) : passRest t = passRest s := by
  obtain ⟨-, inp, pl, rfl⟩ := execTransmit_eq h
  rfl

end

/-! ## The obligations -/

/-- Settles O12: LANEPACK writes the lane array of the position, and in a grid every pixel of a lane can be read. -/
theorem lanepackFillsLaneArray : Obligations.LanepackFillsLaneArray := by
  refine ⟨rfl, rfl, rfl, fun i k s hi _ hfit => ?_⟩
  refine ⟨s.packLanes i k, exec_lanepack_of_frameFits k hi hfit, fun j hj => ?_, fun j hj => ?_, rfl⟩
  · exact frameRead_eq_some_laneArray hfit hi k hj
  · rw [State.packLanes_inp, laneArray_entry, if_neg (Nat.not_lt.2 hj)]

/-- Settles O14: EMITWORD is one write to the buffer. -/
theorem emitwordStoresPlaneWord : Obligations.EmitwordStoresPlaneWord := by
  intro i k p s hx hi
  refine ⟨bufIndex_eq i k p, s.emitWord i k p, exec_emitword_of_idle k p hx hi, ?_, fun a ha => ?_, rfl⟩
  · exact Memory.read_write_same _ _ _
  · exact Memory.read_write_other _ _ _ _ ha

/-- Settles O16: BUILD lists the words of the closed form, and these have the stated bits. -/
theorem buildWritesClosedForm : Obligations.BuildWritesClosedForm := by
  intro s hx hfit
  have hbuild := exec_build_of_idle hx hfit
  have hbuf := exec_build_buf hbuild
  refine ⟨s.buildAll, hbuild, fun i k p hi => ?_, fun a ha => ?_, ?_⟩
  · have hlt : bufIndex i k p < 24 * s.n := by
      rw [bufIndex_eq]
      omega
    refine ⟨frameWord s.frame s.c (bufIndex i k p), ?_, fun b hb =>
      getLsbD_frameWord_bufIndex _ _ _ _ _ hb⟩
    rw [hbuf, bufferPrefix_read, if_pos hlt]
  · rw [hbuf, bufferPrefix_read, if_neg (Nat.not_lt.2 ha)]
  · obtain ⟨inp, pl, hall⟩ := s.buildAll_eq
    rw [hall]

/-- Settles O17: the buffer lists the first 24·N words of the closed form, each of a plane byte. -/
theorem buildLengthAndLowBits : Obligations.BuildLengthAndLowBits := by
  intro s t h
  rw [exec_build_buf h]
  exact ⟨bufferPrefix_map_fst _ _ _, fun _ => lowBitsZero_of_mem_bufferPrefix⟩

/-- Settles O18: the closed form names the frame, C and N alone. -/
theorem buildDependsOnFrameOnly : Obligations.BuildDependsOnFrameOnly := by
  intro s s' t t' hframe hc hn h h'
  rw [exec_build_buf h, exec_build_buf h', hframe, hc, hn]

/-- Settles O19: below the top C bits a word of the closed form is 0, which with C = 1 leaves bit 31 alone. -/
theorem buildUnusedLanesAreZero : Obligations.BuildUnusedLanesAreZero := by
  intro s t h e he
  rw [exec_build_buf h] at he
  obtain ⟨a, -, rfl⟩ := mem_bufferPrefix_iff.1 he
  have hlow : ∀ b < 32 - s.c, (frameWord s.frame s.c a).getLsbD b = false :=
    fun b hb => getLsbD_frameWord_of_lt s.frame a hb
  exact ⟨hlow, fun hone => eq_zero_or_eq_top_of_getLsbD fun b hb => hlow b (by omega)⟩

/-- Settles O60: TRANSMIT leaves the pass in progress and appends the words of its frame to those owed; the state need
not meet the invariant for this. -/
theorem transmitOwesItsFrame : Obligations.TransmitOwesItsFrame := by
  intro f s t _ h
  simp only [wireDue, passRest_transmit h, owedWords_transmit h, List.flatMap_append,
    List.flatMap_map, List.append_assoc]

end Sys2Proof.Machine
end

section
/-! PROOFS. ProtocolProgram (42_protocol.md): what each operation of the PSM does (O20 to O24) and where it leaves ST
(O26), DATA while the clock rises (O30), progress (O45), the pins and the wire frame of one pass (O27, O28), and the
wire trace of every run (O59). -/

namespace Sys2Proof.Machine

section

variable {s t u : State}

/-! ## The two halves of a bit (R159, R160, R162, R164) -/

/-- The bit that the low half of a bit of state `st` puts on DATA. -/
def dataBit (st : PsmState) (osr : Word) : Bool :=
  match st with
  | .bitloop0 => true
  | .bitloop1 => osrTop osr
  | .header | .pull | .bitloop2 => false

/-- OSR after `n` low halves in state `st`: only BITLOOP1 shifts it. -/
def osrAfter (st : PsmState) (osr : Word) (n : Nat) : Word :=
  match st with
  | .bitloop1 => osr <<< n
  | .header | .pull | .bitloop0 | .bitloop2 => osr

theorem osrAfter_zero (st : PsmState) (osr : Word) : osrAfter st osr 0 = osr := by
  cases st with
  | bitloop1 => exact BitVec.shiftLeft_zero osr
  | header | pull | bitloop0 | bitloop2 => rfl

theorem osrAfter_succ (st : PsmState) (osr : Word) (n : Nat) :
    osrAfter st (osrAfter st osr 1) n = osrAfter st osr (n + 1) := by
  cases st with
  | bitloop1 => rw [Nat.add_comm]; exact (BitVec.shiftLeft_add osr 1 n).symm
  | header | pull | bitloop0 | bitloop2 => rfl

/-- What the low half of a bit makes of a state, in whichever BITLOOP state it is. -/
def State.lowHalf (s : State) (st : PsmState) : State :=
  { s.bitLow (dataBit st s.osr) with osr := osrAfter st s.osr 1 }

theorem State.psmAt_self (hen : s.en = true) : s.psmAt s.st = true :=
  State.psmAt_iff.2 ⟨hen, rfl⟩

theorem exists_afterBits_of_inBitloop (h : s.inBitloop = true) : ∃ next, afterBits s.st = some next := by
  cases hst : s.st with
  | header | pull => simp [State.inBitloop, hst] at h
  | bitloop0 | bitloop1 | bitloop2 => exact ⟨_, rfl⟩

theorem State.lastBit_of_cnt_eq (h : s.cnt = 7) : s.lastBit = true := by
  simp [State.lastBit, h]

theorem State.lastBit_of_cnt_ne (h : s.cnt ≠ 7) : s.lastBit = false := by
  simpa [State.lastBit] using h

section

variable {st next : PsmState}

/-- An enabled operation of a BITLOOP state is one half of a bit (R159). -/
theorem exec_psmOperation_bitStep (hat : s.psmAt st = true) (hnext : afterBits st = some next) :
    exec (psmOperation st) s = .next (s.bitStep (s.lowHalf st) next) := by
  cases st with
  | header | pull => cases hnext
  | bitloop0 => cases hnext; exact exec_bitloop0_of_psmAt hat
  | bitloop1 => cases hnext; exact exec_bitloop1_of_psmAt hat
  | bitloop2 => cases hnext; exact exec_bitloop2_of_psmAt hat

theorem exec_psmOperation_low (hat : s.psmAt st = true) (hnext : afterBits st = some next)
    (hph : s.ph = .low) : exec (psmOperation st) s = .next (s.lowHalf st) := by
  rw [exec_psmOperation_bitStep hat hnext, State.bitStep_low _ _ hph]

theorem exec_psmOperation_high (hat : s.psmAt st = true) (hnext : afterBits st = some next)
    (hph : s.ph = .high) : exec (psmOperation st) s = .next (s.bitHigh next) := by
  rw [exec_psmOperation_bitStep hat hnext, State.bitStep_high _ _ hph]

/-- The common structure of the BITLOOP states, half by half (R159). -/
theorem exec_psmOperation_halves (hen : s.en = true) (hst : s.st = st)
    (hnext : afterBits st = some next) :
    (s.ph = .low → exec (psmOperation st) s = .next (s.lowHalf st)) ∧
    (s.ph = .high → s.cnt ≠ 7 → exec (psmOperation st) s =
      .next { s with clk := true, ph := .low, cnt := s.cnt + 1 }) ∧
    (s.ph = .high → s.cnt = 7 → exec (psmOperation st) s =
      .next { s with clk := true, ph := .low, cnt := 0, st := next }) := by
  have hat : s.psmAt st = true := State.psmAt_iff.2 ⟨hen, hst⟩
  refine ⟨exec_psmOperation_low hat hnext, fun hph hcnt => ?_, fun hph hcnt => ?_⟩
  · rw [exec_psmOperation_high hat hnext hph,
      State.bitHigh_not_last next (State.lastBit_of_cnt_ne hcnt)]
  · rw [exec_psmOperation_high hat hnext hph,
      State.bitHigh_last next (State.lastBit_of_cnt_eq hcnt)]

end

/-! ## Progress (R177) and the stability of DATA (R176) -/

theorem State.psmEnabled_iff :
    s.psmEnabled = true ↔ s.en = true ∧ (s.st ≠ .pull ∨ s.queue ≠ []) := by
  cases hen : s.en <;> simp [State.psmEnabled, State.stalled, State.empty, hen]

/-- An enabled operation of the PSM changes ST or PH. -/
theorem exec_psmOperation_ne (h : s.psmEnabled = true) :
    ∃ t, exec (psmOperation s.st) s = .next t ∧ t ≠ s := by
  obtain ⟨hen, hready⟩ := State.psmEnabled_iff.1 h
  have hat := State.psmAt_self hen
  by_cases hloop : s.inBitloop = true
  · obtain ⟨next, hnext⟩ := exists_afterBits_of_inBitloop hloop
    cases hph : s.ph with
    | low =>
      refine ⟨_, exec_psmOperation_low hat hnext hph, fun heq => ?_⟩
      cases hph.symm.trans (congrArg State.ph heq).symm
    | high =>
      refine ⟨_, exec_psmOperation_high hat hnext hph, fun heq => ?_⟩
      cases hph.symm.trans (congrArg State.ph heq).symm
  · cases hst : s.st with
    | header =>
      rw [hst] at hat
      refine ⟨_, exec_header_of_psmAt hat, fun heq => ?_⟩
      cases hst.symm.trans (congrArg State.st heq).symm
    | pull =>
      rw [hst] at hat
      obtain ⟨w, rest, hq⟩ := List.exists_cons_of_ne_nil (hready.resolve_left (not_not_intro hst))
      refine ⟨_, exec_pull_of_psmAt_cons hat hq, fun heq => ?_⟩
      cases hst.symm.trans (congrArg State.st heq).symm
    | bitloop0 | bitloop1 | bitloop2 => simp [State.inBitloop, hst] at hloop

/-- An enabled PUSH moves IDX. -/
theorem exec_push_ne (h : s.feederEnabled = true) (hword : (Memory.read s.buf s.idx).isSome = true) :
    ∃ t, exec .push s = .next t ∧ t ≠ s := by
  obtain ⟨v, hv⟩ := Option.isSome_iff_exists.1 hword
  refine ⟨{ s.fifoPush v with idx := s.idx + 1 }, ?_, fun heq => ?_⟩
  · simp only [exec, execPush, h, if_true, hv]
  · exact Nat.succ_ne_self s.idx (congrArg State.idx heq)

/-- The PSM raises the clock in the high half of a bit only, and that leaves DATA (R159, R176). -/
theorem exec_psmOperation_dataPin {st : PsmState} (h : exec (psmOperation st) s = .next t)
    (hhigh : t.clk = true) : t.dataPin = s.dataPin := by
  cases exec_psmOperation_move h with
  | hold | pull | high => rfl
  | header | lowOne | lowReal | lowZero => cases hhigh

/-- CONSTRUCT clears the clock, and no other operation of the host touches a pin (R55, R176). -/
theorem exec_host_dataPin {i : Instr} (hi : i.agent = .host) (h : exec i s = .next t)
    (hhigh : t.clk = true) : t.dataPin = s.dataPin := by
  by_cases hc : ∃ c n slot, i = .construct c n slot
  · obtain ⟨c, n, slot, rfl⟩ := hc
    rcases execConstruct_next h with ⟨-, rfl⟩ | ⟨-, -, -, -, rfl⟩
    · rfl
    · cases hhigh
  · obtain ⟨-, -, -, -, hpins, -⟩ := hostLeavesPsmAlone i s t hi (by simpa using hc) h
    exact congrArg Prod.fst hpins

/-! ## Runs of the PSM alone -/

/-- `PsmRun s ps u`: from `s` the PSM performs an enabled operation for each triple of `ps`, which the pins then show,
and ends in `u`; no other agent moves and no turn is taken. -/
inductive PsmRun : State → List (Bool × Bool × Bool) → State → Prop
  | nil (s : State) : PsmRun s [] s
  | cons {s t u : State} {ps : List (Bool × Bool × Bool)} (hen : s.psmEnabled = true)
    (hexec : exec (psmOperation s.st) s = .next t) (hrest : PsmRun t ps u) :
    PsmRun s (t.pins :: ps) u

theorem PsmRun.single {st : PsmState} (hen : s.psmEnabled = true) (hst : s.st = st)
    (hexec : exec (psmOperation st) s = .next t) : PsmRun s [t.pins] t :=
  .cons hen (by rw [hst]; exact hexec) (.nil t)

theorem PsmRun.append {ps qs : List (Bool × Bool × Bool)} (hfirst : PsmRun s ps t)
    (hsecond : PsmRun t qs u) : PsmRun s (ps ++ qs) u := by
  induction hfirst with
  | nil => exact hsecond
  | cons hen hexec _ ih => exact .cons hen hexec (ih hsecond)

/-- A run ends with the pins as its last operation has driven them. -/
theorem PsmRun.pins_eq {ps : List (Bool × Bool × Bool)} (h : PsmRun s ps u) :
    u.pins = ps.getLastD s.pins := by
  induction h with
  | nil => rfl
  | cons _ _ _ ih => rw [ih, List.getLastD_cons]

theorem psmEnabled_eq_of_psmView_eq (h : psmView s = psmView t) : s.psmEnabled = t.psmEnabled := by
  rw [← State.withPsm_eq_self h]
  simp only [State.psmEnabled, State.stalled, State.empty, State.withPsm, en_eq_of_psmView_eq h]

/-- In the PSM's turn a machine with the view of `s` takes the step that the PSM alone takes from `s` (R26). -/
theorem step_of_psmView_eq {r : State} (hview : psmView s = psmView r) (ha : r.nextTurn.agent = .psm)
    (hexec : exec (psmOperation s.st) s = .next t) :
    ∃ r', step r = .next r' ∧ psmView t = psmView r' ∧ r'.turns = r.turns.tail := by
  have hst : r.st = s.st := (congrArg (fun v => v.2.1) hview).symm
  obtain ⟨t', v, ht', hv, htv, -⟩ :=
    psmSeesOnlyItsOwnState (psmOperation s.st) s r.takeTurn (agent_psmOperation _) hview
  cases hexec.symm.trans ht'
  have hturns : v.turns = r.turns.tail := (congrArg State.turns (exec_psmOperation_frame hv) :)
  exact ⟨v.deliverDrain, by rw [step_psm ha, hst, hv]; rfl, htv, hturns⟩

theorem runTrace_succ_of_step {k : Nat} (h : step s = .next t) :
    runTrace (k + 1) s = (runTrace k t).map fun r => (r.1, wireEvents s t ++ r.2) := by
  simp only [runTrace, h]

theorem pinTrace_succ_of_psmStepsNext {k : Nat} (hn : s.psmStepsNext = true) (h : step s = .next t) :
    pinTrace (k + 1) s = t.pins :: pinTrace k t := by
  simp only [pinTrace, h, hn, if_true]

/-- While it is the PSM's turn, the machine follows the PSM alone: it shows its pins, and leaves the wire trace read off
them. -/
theorem PsmRun.traces {ps : List (Bool × Bool × Bool)} (h : PsmRun s ps u) {r : State}
    {later : List Turn} (hview : psmView s = psmView r)
    (hturns : r.turns = psmTurns ps.length ++ later) :
    pinTrace ps.length r = ps ∧ ∃ v, runTrace ps.length r = some (v, readOff r.pins ps) ∧
      psmView u = psmView v ∧ v.turns = later := by
  induction h generalizing r with
  | nil s => exact ⟨rfl, r, rfl, hview, hturns⟩
  | @cons s t u ps hen hexec _ ih =>
    have hcons : r.turns = { agent := .psm, dt := 0 } :: (psmTurns ps.length ++ later) := hturns
    have ha : r.nextTurn.agent = .psm := by rw [State.nextTurn, hcons]
    have hnext : r.psmStepsNext = true := by
      simp [State.psmStepsNext, ha, ← psmEnabled_eq_of_psmView_eq hview, hen]
    obtain ⟨r', hstep, hview', htail⟩ := step_of_psmView_eq hview ha hexec
    rw [hcons, List.tail_cons] at htail
    obtain ⟨hpins, v, hrun, hview'', hlater⟩ := ih hview' htail
    have hshown : t.pins = r'.pins := congrArg (fun x => x.2.2.2.2.2.1) hview'
    refine ⟨?_, v, ?_, hview'', hlater⟩
    · rw [List.length_cons, pinTrace_succ_of_psmStepsNext hnext hstep, hpins, hshown]
    · rw [List.length_cons, runTrace_succ_of_step hstep, hrun, hshown]
      rfl

/-! ## One pass of the PSM (R172, R174) -/

/-- The pins after the low and after the high half of a bit `b` (R159). -/
def bitPins (b : Bool) : List (Bool × Bool × Bool) := [(b, false, false), (b, true, false)]

/-- The next `n` bits that state `st` sends from OSR. -/
def sentBits (st : PsmState) (osr : Word) : Nat → List Bool
  | 0 => []
  | n + 1 => dataBit st osr :: sentBits st (osrAfter st osr 1) n

theorem sentBits_of_dataBit {st : PsmState} {b : Bool} (h : ∀ osr, dataBit st osr = b) (osr : Word)
    (n : Nat) : sentBits st osr n = List.replicate n b := by
  induction n generalizing osr with
  | zero => rfl
  | succ n ih => rw [sentBits, h, ih, List.replicate_succ]

theorem sentBits_bitloop1_map (osr : Word) {n : Nat} (hn : n ≤ 32) :
    (sentBits .bitloop1 osr n).map .bit = realBits osr n := by
  induction n generalizing osr with
  | zero => rfl
  | succ n ih =>
    rw [realBits_succ osr (Nat.le_of_succ_le_succ hn), sentBits, List.map_cons, ih _ (by omega)]
    rfl

/-- The 24 bits of a pass that pops `w`. -/
def passBits (w : Word) : List Bool :=
  sentBits .bitloop0 w 8 ++ sentBits .bitloop1 w 8 ++ sentBits .bitloop2 (w <<< 8) 8

theorem passBits_map (w : Word) : (passBits w).map .bit = wordPulses w := by
  rw [passBits, sentBits_of_dataBit (st := .bitloop0) (fun _ => rfl),
    sentBits_of_dataBit (st := .bitloop2) (fun _ => rfl), List.map_append, List.map_append,
    sentBits_bitloop1_map w (by decide), List.map_replicate, List.map_replicate]
  rfl

theorem sentBits_bitloop1 (w : Word) {n : Nat} (hn : n ≤ 32) :
    sentBits .bitloop1 w n = (List.range n).map fun j => w.getLsbD (31 - j) := by
  have hinj : Function.Injective (List.map WireEvent.bit) :=
    List.map_injective_iff.2 fun _ _ => WireEvent.bit.inj
  refine hinj ?_
  rw [sentBits_bitloop1_map w hn, List.map_map]
  rfl

/-- The pins of a pass are those of HEADER and PULL, then those of its bits. -/
theorem passPins_eq (w : Word) :
    passPins w = (true, false, true) :: (true, false, true) :: (passBits w).flatMap bitPins := by
  rw [passBits, sentBits_of_dataBit (st := .bitloop0) (fun _ => rfl),
    sentBits_of_dataBit (st := .bitloop2) (fun _ => rfl), sentBits_bitloop1 w (by decide),
    List.flatMap_append, List.flatMap_append, List.flatMap_map]
  rfl

theorem passPins_length (w : Word) : (passPins w).length = 50 := rfl

/-- Each bit is one event, whatever the pins before it. -/
theorem readOff_flatMap_bitPins (first : Bool × Bool × Bool) (bs : List Bool) :
    readOff first (bs.flatMap bitPins) = bs.map .bit := by
  induction bs generalizing first with
  | nil => rfl
  | cons b bs ih => simp [bitPins, readOff, tripleEvents, ih]

/-- The wire trace of a pass that begins with the strobe released is the wire frame of its word. -/
theorem readOff_passPins {first : Bool × Bool × Bool} (hstb : first.2.2 = false) (w : Word) :
    readOff first (passPins w) = wordFrame w := by
  rw [passPins_eq, readOff, readOff, readOff_flatMap_bitPins, passBits_map]
  simp [tripleEvents, hstb, wordFrame]

/-- The two halves of a bit (R159). -/
theorem psmRun_bit {next : PsmState} (hen : s.en = true) (hnext : afterBits s.st = some next)
    (hph : s.ph = .low) :
    PsmRun s (bitPins (dataBit s.st s.osr)) ((s.lowHalf s.st).bitHigh next) := by
  have henabled : s.psmEnabled = true :=
    State.psmEnabled_iff.2 ⟨hen, .inl fun hst => by rw [hst] at hnext; cases hnext⟩
  have hat := State.psmAt_self hen
  have hlow := PsmRun.single henabled rfl (exec_psmOperation_low hat hnext hph)
  have hhigh := PsmRun.single (s := s.lowHalf s.st) henabled rfl
    (exec_psmOperation_high hat hnext rfl)
  exact hlow.append hhigh

/-- What `n + 1` bits, the last one of them the eighth, make of a state in BITLOOP (R159). -/
def State.bitsDone (s : State) (n : Nat) (next : PsmState) : State :=
  { s with
    dataPin := dataBit s.st (osrAfter s.st s.osr n)
    clk := true
    stb := false
    ph := .low
    cnt := 0
    st := next
    osr := osrAfter s.st s.osr (n + 1) }

theorem State.bitsDone_zero (next : PsmState) :
    s.bitsDone 0 next = { s.lowHalf s.st with clk := true, ph := .low, cnt := 0, st := next } := by
  rw [State.bitsDone, osrAfter_zero]
  rfl

theorem State.bitsDone_succ (n : Nat) (next : PsmState) :
    s.bitsDone (n + 1) next =
      ({ s.lowHalf s.st with clk := true, ph := .low, cnt := s.cnt + 1 } : State).bitsDone n next := by
  rw [State.bitsDone, ← osrAfter_succ s.st s.osr n, ← osrAfter_succ s.st s.osr (n + 1)]
  rfl

/-- The bits of a BITLOOP state from CNT on, by induction on how many come before the last. -/
theorem psmRun_bits {n : Nat} {next : PsmState} (hen : s.en = true)
    (hnext : afterBits s.st = some next) (hph : s.ph = .low) (hcnt : s.cnt.toNat + n = 7) :
    PsmRun s ((sentBits s.st s.osr (n + 1)).flatMap bitPins) (s.bitsDone n next) := by
  induction n generalizing s with
  | zero =>
    have hbit := psmRun_bit hen hnext hph
    have hlast : (s.lowHalf s.st).lastBit = true := State.lastBit_iff.2 hcnt
    rw [State.bitHigh_last next hlast] at hbit
    rw [State.bitsDone_zero]
    exact hbit
  | succ n ih =>
    have hbit := psmRun_bit hen hnext hph
    have hmore : (s.lowHalf s.st).lastBit = false := Bool.eq_false_iff.2 fun hlast => by
      have hseven : s.cnt.toNat = 7 := State.lastBit_iff.1 hlast
      omega
    have hcount : (s.cnt + 1).toNat = s.cnt.toNat + 1 := (State.cnt_succ hmore).2
    have hleft : (s.cnt + 1).toNat + n = 7 := by omega
    rw [State.bitHigh_not_last next hmore] at hbit
    rw [State.bitsDone_succ]
    exact hbit.append (ih hen hnext rfl hleft)

/-- The bits of a pass, from the first one after PULL on: those of BITLOOP0, BITLOOP1 and BITLOOP2. -/
theorem psmRun_passBits (hen : s.en = true) (hst : s.st = .bitloop0) (hph : s.ph = .low)
    (hcnt : s.cnt = 0) :
    PsmRun s ((passBits s.osr).flatMap bitPins)
      (((s.bitsDone 7 .bitloop1).bitsDone 7 .bitloop2).bitsDone 7 .header) := by
  have hones : PsmRun s ((sentBits .bitloop0 s.osr 8).flatMap bitPins) (s.bitsDone 7 .bitloop1) := by
    have hbits := psmRun_bits (n := 7) hen (congrArg afterBits hst) hph (by rw [hcnt]; rfl)
    rwa [hst] at hbits
  have hosr : (s.bitsDone 7 .bitloop1).osr = s.osr := by simp only [State.bitsDone, hst, osrAfter]
  have hreal := psmRun_bits (s := s.bitsDone 7 .bitloop1) (n := 7) hen rfl rfl rfl
  have hzeros := psmRun_bits (s := (s.bitsDone 7 .bitloop1).bitsDone 7 .bitloop2) (n := 7) hen rfl rfl rfl
  have hosr' : ((s.bitsDone 7 .bitloop1).bitsDone 7 .bitloop2).osr = s.osr <<< 8 :=
    congrArg (fun v : Word => v <<< 8) hosr
  rw [hosr] at hreal
  rw [hosr'] at hzeros
  rw [passBits, List.flatMap_append, List.flatMap_append]
  exact (hones.append hreal).append hzeros

/-- HEADER is a step that asserts the strobe (R157). -/
theorem psmRun_header (hen : s.en = true) (hst : s.st = .header) :
    PsmRun s [(true, false, true)] { s.drivePins true false true with st := .pull } := by
  have henabled : s.psmEnabled = true := State.psmEnabled_iff.2 ⟨hen, .inl (by simp [hst])⟩
  exact .single henabled hst (exec_header_of_psmAt (State.psmAt_iff.2 ⟨hen, hst⟩))

/-- PULL is a step that leaves the pins (R158). -/
theorem psmRun_pull {w : Word} {rest : List Word} (hen : s.en = true) (hst : s.st = .pull)
    (hq : s.queue = w :: rest) :
    PsmRun s [s.pins] { s with queue := rest, osr := w, cnt := 0, ph := .low, st := .bitloop0 } := by
  have henabled : s.psmEnabled = true := State.psmEnabled_iff.2 ⟨hen, .inr (by simp [hq])⟩
  exact (PsmRun.single henabled hst (exec_pull_of_psmAt_cons (State.psmAt_iff.2 ⟨hen, hst⟩) hq) :)

/-- A pass: HEADER, PULL, which takes the word, and its 24 bits, to HEADER again. -/
theorem psmRun_pass {w : Word} {rest : List Word} (hen : s.en = true) (hst : s.st = .header)
    (hq : s.queue = w :: rest) :
    ∃ u, PsmRun s (passPins w) u ∧ u.st = .header ∧ u.cnt = 0 ∧ u.ph = .low ∧ u.queue = rest ∧
      u.osr = w <<< 8 := by
  have hpull := psmRun_pull (s := { s.drivePins true false true with st := .pull }) hen rfl hq
  have hrun := (psmRun_header hen hst).append (hpull.append (psmRun_passBits hen rfl rfl rfl))
  rw [passPins_eq]
  exact ⟨_, hrun, rfl, rfl, rfl, rfl, rfl⟩

/-! ## The wire trace of a run (R173, R175) -/

/-- The first of the steps of a run, and the run that the others are. -/
theorem runTrace_succ {k : Nat} {trace : List WireEvent} (h : runTrace (k + 1) s = some (t, trace)) :
    ∃ u tail, step s = .next u ∧ runTrace k u = some (t, tail) ∧ trace = wireEvents s u ++ tail := by
  cases hs : step s with
  | next u =>
    rw [runTrace_succ_of_step hs, Option.map_eq_some_iff] at h
    obtain ⟨⟨t', tail⟩, hrun, heq⟩ := h
    cases heq
    exact ⟨u, tail, rfl, hrun, rfl⟩
  | fault r => simp [runTrace, hs] at h
  | refused r => simp [runTrace, hs] at h

/-- Step by step a run pays what it puts on the wire. -/
theorem runTrace_append_wireDue {k : Nat} {trace : List WireEvent} (hs : Invariant s)
    (hp : s.prog = []) (h : runTrace k s = some (t, trace)) : trace ++ wireDue t = wireDue s := by
  induction k generalizing s trace with
  | zero => cases h; rfl
  | succ k ih =>
    obtain ⟨u, tail, hstep, hrun, rfl⟩ := runTrace_succ h
    obtain ⟨hprog, -⟩ := step_pins hp hstep
    calc wireEvents s u ++ tail ++ wireDue t
        = wireEvents s u ++ wireDue u := by
          rw [List.append_assoc, ih (stepKeepsInvariant s u hs hstep) hprog hrun]
      _ = wireDue s := wireDebtIsConserved s u hs hp hstep

/-- An enabled PSM that waits in PULL, with nothing queued and nothing in flight, owes nothing (R178). -/
theorem wireDue_of_quiescent (hen : s.en = true) (hq : s.quiescent = true) : wireDue s = [] := by
  obtain ⟨hidle, hqueue, hst⟩ := State.quiescent_iff.1 hq
  have hpull : s.st = .pull := hst.resolve_right (by simp [hen])
  simp [wireDue, passRest, owedWords, hidle, hqueue, hpull]

end

/-! ## The obligations -/

/-- Settles O20. -/
theorem headerAssertsStrobe : Obligations.HeaderAssertsStrobe :=
  fun _ hen hst => exec_header_of_psmAt (State.psmAt_iff.2 ⟨hen, hst⟩)

/-- Settles O21, by the queue. -/
theorem pullFetchesOrHolds : Obligations.PullFetchesOrHolds := by
  intro s hen hst
  have hat : s.psmAt .pull = true := State.psmAt_iff.2 ⟨hen, hst⟩
  exact ⟨fun _ _ => exec_pull_of_psmAt_cons hat, exec_pull_of_psmAt_nil hat⟩

/-- Settles O22: the halves of a bit, DATA being 1. -/
theorem bitloopZeroSendsOnes : Obligations.BitloopZeroSendsOnes :=
  fun _ hen hst => exec_psmOperation_halves hen hst rfl

/-- Settles O23: the halves of a bit, DATA being the top bit of OSR. -/
theorem bitloopOneSendsRealBit : Obligations.BitloopOneSendsRealBit :=
  fun _ hen hst => exec_psmOperation_halves hen hst rfl

/-- Settles O24: the halves of a bit, DATA being 0. -/
theorem bitloopTwoSendsZeros : Obligations.BitloopTwoSendsZeros :=
  fun _ hen hst => exec_psmOperation_halves hen hst rfl

/-- Settles O26: each row of the table is read off the equation of its operation. -/
theorem stateTransitionsFollowTable : Obligations.StateTransitionsFollowTable := by
  intro s i hen hdec
  cases hdec.symm.trans (decode_fetchBytes s)
  obtain ⟨t, ht, -⟩ := exec_psmOperation_withPsm s.st (s := s) (r := s) rfl
  have hat {st : PsmState} (hst : s.st = st) : s.psmAt st = true := State.psmAt_iff.2 ⟨hen, hst⟩
  have row {st : PsmState} {u : State} (hst : s.st = st)
      (hu : exec (psmOperation st) s = .next u) : t = u := by
    rw [hst] at ht
    exact Host.Outcome.next.inj (ht.symm.trans hu)
  have lastRow {st next : PsmState} (hnext : afterBits st = some next) (hst : s.st = st)
      (hph : s.ph = .high) (hcnt : s.cnt = 7) : t.st = next ∧ t.ph = .low ∧ t.cnt = 0 := by
    obtain ⟨-, -, hlast⟩ := exec_psmOperation_halves hen hst hnext
    rw [row hst (hlast hph hcnt)]
    exact ⟨rfl, rfl, rfl⟩
  refine ⟨t, ht, fun hst => ?_, fun hst hq => ?_, fun hst hq => ?_, fun hloop hph => ?_,
    fun hloop hph hcnt => ?_, lastRow rfl, lastRow rfl, fun hst hph hcnt => ?_⟩
  · rw [row hst (exec_header_of_psmAt (hat hst))]
  · obtain ⟨w, rest, hq⟩ := List.exists_cons_of_ne_nil hq
    rw [row hst (exec_pull_of_psmAt_cons (hat hst) hq)]
    exact ⟨rfl, rfl, rfl⟩
  · rw [row hst (exec_pull_of_psmAt_nil (hat hst) hq)]
    exact hst
  · obtain ⟨next, hnext⟩ := exists_afterBits_of_inBitloop hloop
    rw [row rfl (exec_psmOperation_low (hat rfl) hnext hph)]
    exact ⟨rfl, rfl, rfl⟩
  · obtain ⟨next, hnext⟩ := exists_afterBits_of_inBitloop hloop
    have hmore : s.lastBit = false := Bool.eq_false_iff.2 fun h => hcnt.ne (State.lastBit_iff.1 h)
    rw [row rfl (exec_psmOperation_high (hat rfl) hnext hph), State.bitHigh_not_last next hmore]
    exact ⟨rfl, rfl, (State.cnt_succ hmore).2⟩
  · obtain ⟨hnext, -, hzero⟩ := lastRow rfl hst hph hcnt
    exact ⟨hnext, hzero⟩

/-- Settles O30, by the agent of the operation: what leaves the clock high is a high half, or touches no pin. -/
theorem dataStableWhenClockRises : Obligations.DataStableWhenClockRises := by
  intro i s t h _ hhigh
  rcases agent_cases i with hi | ⟨st, rfl⟩ | rfl
  · exact exec_host_dataPin hi h hhigh
  · exact exec_psmOperation_dataPin h hhigh
  · rcases execPush_next h with ⟨-, v, -, rfl⟩ | ⟨-, rfl⟩ <;> rfl

/-- Settles O45: what is enabled changes ST, PH or IDX, and an empty queue has room, FIFO_DEPTH being at least 1. -/
theorem feederAndPsmNeverDeadlock : Obligations.FeederAndPsmNeverDeadlock := by
  intro s hen hdepth
  refine ⟨fun hready => ?_, fun hx hidx hword => ⟨fun hroom => ?_, ?_⟩⟩
  · obtain ⟨t, ht, hne⟩ := exec_psmOperation_ne (State.psmEnabled_iff.2 ⟨hen, hready⟩)
    exact ⟨_, t, decode_fetchBytes s, ht, hne⟩
  · exact exec_push_ne (State.feederEnabled_iff.2 ⟨hx, hidx, hroom⟩) hword
  · by_cases hq : s.queue = []
    · exact .inr (by rw [hq]; exact hdepth)
    · exact .inl (.inr hq)

/-- Settles O28: the pins of the PSM's run, which the machine follows. -/
theorem passDrivesPins : Obligations.PassDrivesPins := by
  intro s w rest later hturns hen hst hq
  obtain ⟨u, hrun, -⟩ := psmRun_pass hen hst hq
  obtain ⟨hpins, -⟩ := hrun.traces rfl hturns
  exact hpins

/-- Settles O27: the wire trace is read off the pins of the PSM's run, and what that run leaves is what the machine
shows. -/
theorem passSendsWireFrame : Obligations.PassSendsWireFrame := by
  intro s w rest later hturns hen hst hstb hq
  obtain ⟨u, hrun, ust, ucnt, uph, uqueue, uosr⟩ := psmRun_pass hen hst hq
  obtain ⟨-, v, htrace, hview, hlater⟩ := hrun.traces rfl hturns
  have upins : u.pins = (false, true, false) := hrun.pins_eq
  rw [readOff_passPins hstb] at htrace
  simp only [psmView, Prod.mk.injEq, ust, ucnt, uph, uqueue, uosr, upins] at hview
  obtain ⟨-, vst, vcnt, vph, vosr, vpins, vqueue⟩ := hview
  exact ⟨v, htrace, vst.symm, vcnt.symm, vph.symm, vqueue.symm, vosr.symm, vpins.symm, hlater⟩

/-- Settles O59: a run pays what it sends, and a quiescent machine owes nothing. -/
theorem wireTraceOfEveryRun : Obligations.WireTraceOfEveryRun := by
  intro k s t trace hs hp h
  have hpaid := runTrace_append_wireDue hs hp h
  refine ⟨hpaid, fun hen hq => ?_⟩
  rwa [wireDue_of_quiescent hen hq, List.append_nil] at hpaid

end Sys2Proof.Machine
end

section
/-! PROOFS. Transmitter (43_transmitter.md): CONSTRUCT of a legal shape (O34), ENABLE (O37), TRANSMIT (O38, O40), PUSH
(O41), SETTLE (O42), the push of the last word (O43) and the settle delay (O44). -/

namespace Sys2Proof.Machine

section

variable {s t : State}

/-! ## The operations of the transmitter by their guards (R190 to R192, R195, R198) -/

theorem State.busy_eq_false (h : s.txs = .idle) : s.busy = false := by
  simp [State.busy, h]

theorem exec_construct_of_quiescent {c n : Nat} (slot : Nat) (hc : 1 ≤ c) (hc8 : c ≤ 8) (hn : 1 ≤ n)
    (hq : s.quiescent = true) : exec (.construct c n slot) s = .next (s.construct c n slot) := by
  obtain ⟨hidle, -, -⟩ := State.quiescent_iff.1 hq
  have hlanes : ¬ Config.lanes < c := Nat.not_lt.2 hc8
  have hshape : ¬ (c = 0 ∨ n = 0) := by omega
  simp [exec, execConstruct, hlanes, hshape, State.busy_eq_false hidle, hq]

theorem exec_enable_of_built (h : s.built = true) : exec .enable s = .next { s with en := true } :=
  if_pos h

theorem exec_enable_of_not_built (h : s.built = false) : exec .enable s = .refused .noInstance :=
  if_neg (by simp [h])

/-- An idle, enabled transmitter answers TRANSMIT by the shape of the frame. -/
theorem exec_transmit_of_idle (f : Frame) (hx : s.txs = .idle) (hen : s.en = true) :
    exec (.transmit f) s =
      if frameFits f s.c s.n = true then
        .next { ({ s with frame := f } : State).buildAll with idx := 0, txs := .feed }
      else .refused .frameShape := by
  simp [exec, execTransmit, State.busy_eq_false hx, hen]

/-- The state an enabled PUSH of the word `v` leaves (R195). -/
def State.pushed (s : State) (v : Word) : State :=
  { s with queue := s.queue ++ [v], idx := s.idx + 1 }

theorem exec_push_of_feederEnabled (h : s.feederEnabled = true) {v : Word}
    (hv : Memory.read s.buf s.idx = some v) : exec .push s = .next (s.pushed v) := by
  simp only [exec, execPush, h, if_true, hv, State.pushed, State.fifoPush]

theorem exec_push_of_not_feederEnabled (h : ¬ s.feederEnabled = true) : exec .push s = .next s :=
  if_neg h

theorem exec_settle_of_settleEnabled (h : s.settleEnabled = true) :
    exec .settle s = .next { s with txs := .idle, settleTimer := none, buf := [] } :=
  if_pos h

theorem exec_settle_of_not_settleEnabled (h : ¬ s.settleEnabled = true) :
    exec .settle s = .next s :=
  if_neg h

/-! ## The drain event (R192, R197, R217, R223) -/

/-- A due drain event moves TXS to SETTLE and starts the settle timer at the present time. -/
theorem State.deliverDrain_of_drainDue (h : s.drainDue = true) :
    s.deliverDrain.txs = .settle ∧ s.deliverDrain.settleTimer = some s.deliverDrain.now ∧
      s.deliverDrain.drained = true :=
  ⟨if_pos h, if_pos h, (Bool.and_eq_true_iff.1 h).2⟩

/-- The drain event takes TXS out of FEED only where it is due. -/
theorem State.drainDue_of_deliverDrain_txs_ne (hx : s.txs = .feed) (h : s.deliverDrain.txs ≠ .feed) :
    s.drainDue = true := by
  by_contra hdue
  rw [State.deliverDrain_eq_self (Bool.eq_false_iff.2 hdue)] at h
  exact h hx

/-! ## A step while a transmission is in flight (R192, R198, R240) -/

/-- What the operation of a step in flight does to TXS and the settle timer, from `s` to `v`: it leaves both, or it
is the SETTLE that returns, at the delay after the drain or later. -/
def keepsOrReturns (s v : State) : Prop :=
  (v.txs = s.txs ∧ v.settleTimer = s.settleTimer) ∨
    (s.txs = .settle ∧ v.txs = .idle ∧ ∃ d, s.settleTimer = some d ∧ d + 55000 ≤ v.now)

theorem exec_psmOperation_keepsOrReturns {st : PsmState} (h : exec (psmOperation st) s = .next t) :
    keepsOrReturns s t := by
  rw [exec_psmOperation_frame h]
  exact .inl ⟨rfl, rfl⟩

theorem exec_push_keepsOrReturns (h : exec .push s = .next t) : keepsOrReturns s t := by
  rcases execPush_next h with ⟨-, v, -, rfl⟩ | ⟨-, rfl⟩
  · exact .inl ⟨rfl, rfl⟩
  · exact .inl ⟨rfl, rfl⟩

theorem exec_settle_keepsOrReturns (h : exec .settle s = .next t) : keepsOrReturns s t := by
  rcases execSettle_next h with ⟨henabled, rfl⟩ | ⟨-, rfl⟩
  · obtain ⟨hx, hexpired⟩ := State.settleEnabled_iff.1 henabled
    exact .inr ⟨hx, rfl, hexpired⟩
  · exact .inl ⟨rfl, rfl⟩

/-- In flight no call of the program runs; the drain event comes after the one operation that does, if any. -/
theorem step_of_busy (hx : s.txs ≠ .idle) (h : step s = .next t) :
    ∃ v, t = v.deliverDrain ∧ keepsOrReturns s v := by
  rcases step_next h with rfl | ⟨i, u, v, hv, rfl, ⟨rfl, hmove⟩ | ⟨rest, -, -, hidle, -⟩⟩
  · exact ⟨s.takeTurn, rfl, .inl ⟨rfl, rfl⟩⟩
  · refine ⟨v, rfl, ?_⟩
    change keepsOrReturns s.takeTurn v
    rcases hmove with ⟨rfl, -⟩ | ⟨rfl, -⟩ | ⟨rfl, -, -⟩
    · exact exec_psmOperation_keepsOrReturns hv
    · exact exec_push_keepsOrReturns hv
    · exact exec_settle_keepsOrReturns hv
  · exact absurd hidle hx

/-- From FEED a step moves TXS by the drain event only. -/
theorem step_from_feed (hx : s.txs = .feed) (h : step s = .next t) (hne : t.txs ≠ .feed) :
    t.txs = .settle ∧ t.settleTimer = some t.now ∧ t.drained = true := by
  obtain ⟨v, rfl, ⟨hkeep, -⟩ | ⟨hsettle, -⟩⟩ := step_of_busy (by simp [hx]) h
  · exact State.deliverDrain_of_drainDue (State.drainDue_of_deliverDrain_txs_ne (hkeep.trans hx) hne)
  · cases hx.symm.trans hsettle

/-- In SETTLE no drain event is due: a step does to TXS and the settle timer what its operation does. -/
theorem step_from_settle (hx : s.txs = .settle) (h : step s = .next t) : keepsOrReturns s t := by
  obtain ⟨v, rfl, hv⟩ := step_of_busy (by simp [hx]) h
  have hfeed : v.txs ≠ .feed := by
    rcases hv with ⟨hkeep, -⟩ | ⟨-, hidle, -⟩
    · simp [hkeep, hx]
    · simp [hidle]
  rwa [State.deliverDrain_eq_self (State.drainDue_eq_false hfeed)]

end

/-! ## The obligations -/

/-- Settles O34: each guard of CONSTRUCT passes, and the construction is the state asked for. -/
theorem constructCompletesWhenQuiescent : Obligations.ConstructCompletesWhenQuiescent := by
  intro c n slot s hc hc8 hn hq
  exact ⟨s.construct c n slot, exec_construct_of_quiescent slot hc hc8 hn hq, rfl, rfl, rfl, rfl,
    one_le_fifoDepthOf s.freeCount, rfl, rfl, rfl, rfl, rfl, rfl, rfl⟩

/-- Settles O37: the one guard of ENABLE is that a CONSTRUCT has come first. -/
theorem enableSetsEnableBit : Obligations.EnableSetsEnableBit :=
  fun _ => ⟨exec_enable_of_built, exec_enable_of_not_built⟩

/-- Settles O38: the buffer is BUILD's, which lists the words of the closed form of the operand. -/
theorem transmitBuildsAndFeeds : Obligations.TransmitBuildsAndFeeds := by
  intro f s hx hen hfit
  have hexec := (exec_transmit_of_idle f hx hen).trans (if_pos hfit)
  obtain ⟨-, inp, pl, hall⟩ := execTransmit_eq hexec
  rw [hall] at hexec
  refine ⟨_, hexec, fun a ha => ?_, fun a ha => ?_, rfl⟩
  · exact (bufferPrefix_read _ _ _ _).trans (if_pos ha)
  · exact (bufferPrefix_read _ _ _ _).trans (if_neg (Nat.not_lt.2 ha))

/-- Settles O40: the last guard of TRANSMIT is the shape of the frame. -/
theorem transmitRefusesWrongShape : Obligations.TransmitRefusesWrongShape := by
  intro f s hx hen hfit
  exact (exec_transmit_of_idle f hx hen).trans (if_neg (by simp [hfit]))

/-- Settles O41: PUSH is enabled exactly where the feeder has a word left and the queue has room. -/
theorem pushMovesOneWord : Obligations.PushMovesOneWord := by
  refine fun s => ⟨fun v hx hidx hroom hv => ?_, fun hoff => ?_⟩
  · exact exec_push_of_feederEnabled (State.feederEnabled_iff.2 ⟨hx, hidx, hroom⟩) hv
  · refine exec_push_of_not_feederEnabled fun henabled => ?_
    obtain ⟨hx, hidx, hroom⟩ := State.feederEnabled_iff.1 henabled
    rw [State.bufLen_eq] at hidx
    rcases hoff with hne | hdone | hfull
    · exact hne hx
    · omega
    · omega

/-- Settles O42: SETTLE is enabled exactly where TXS is SETTLE and the delay since the drain has passed. -/
theorem settleWaitsThenReturns : Obligations.SettleWaitsThenReturns := by
  refine fun s => ⟨fun d hx hd hpast => ?_, fun d _ hd hearly => ?_, fun hne => ?_⟩
  · exact exec_settle_of_settleEnabled (State.settleEnabled_iff.2 ⟨hx, d, hd, hpast⟩)
  · refine exec_settle_of_not_settleEnabled fun henabled => ?_
    obtain ⟨-, d', hd', hpast⟩ := State.settleEnabled_iff.1 henabled
    cases hd.symm.trans hd'
    omega
  · exact exec_settle_of_not_settleEnabled fun henabled => hne (State.settleEnabled_iff.1 henabled).1

/-- Settles O43: in the feeder's turn PUSH is enabled, and its word being the last the drain event follows it. -/
theorem lastPushStartsSettle : Obligations.LastPushStartsSettle := by
  intro s v hturn hx hlast hroom hv
  have hidx : s.idx < s.bufLen := Nat.lt_of_succ_le hlast.le
  have henabled : s.takeTurn.feederEnabled = true := State.feederEnabled_iff.2 ⟨hx, hidx, hroom⟩
  have hdue : (s.takeTurn.pushed v).drainDue = true := State.drainDue_iff.2 ⟨hx, hlast⟩
  have hstep : step s = .next (s.takeTurn.pushed v).deliverDrain := by
    rw [step_feeder hturn, exec_push_of_feederEnabled henabled hv]
    rfl
  obtain ⟨htxs, htimer, hdrained⟩ := State.deliverDrain_of_drainDue hdue
  exact ⟨_, hstep, hlast, hdrained, rfl, htxs, htimer⟩

/-- Settles O44: TXS leaves FEED by the drain event, and SETTLE by the SETTLE that returns. -/
theorem noReturnBeforeSettleDelay : Obligations.NoReturnBeforeSettleDelay := by
  refine fun s t h => ⟨fun hx => step_from_feed hx h, fun hx hstay => ?_, fun hx hleave => ?_⟩
  · rcases step_from_settle hx h with ⟨-, htimer⟩ | ⟨-, hidle, -⟩
    · exact htimer
    · cases hstay.symm.trans hidle
  · rcases step_from_settle hx h with ⟨hkeep, -⟩ | ⟨-, hidle, hexpired⟩
    · exact absurd (hkeep.trans hx) hleave
    · exact ⟨hidle, hexpired⟩

end Sys2Proof.Machine
end

section
/-! PROOFS. Exceptions (60_exceptions.md): when CONSTRUCT (O36) and TRANSMIT (O39) are refused; with no call of the host
left nothing stops the machine (O57). -/

namespace Sys2Proof.Machine

section

variable {s : State}

/-! ## The refusals of CONSTRUCT and TRANSMIT (R203, R212 to R216, R239) -/

theorem State.busy_eq_true (h : s.txs ≠ .idle) : s.busy = true := by
  simp [State.busy, h]

theorem exec_construct_of_degenerate {c n : Nat} (slot : Nat) (hc8 : c ≤ 8) (h : c = 0 ∨ n = 0) :
    exec (.construct c n slot) s = .refused .degenerateShape :=
  (if_neg (Nat.not_lt.2 hc8)).trans (if_pos h)

/-- A CONSTRUCT of a legal shape is answered by what it would abandon or stop. -/
theorem exec_construct_of_legal {c n : Nat} (slot : Nat) (hc : 1 ≤ c) (hc8 : c ≤ 8) (hn : 1 ≤ n) :
    exec (.construct c n slot) s =
      if s.busy = true then .refused .abortInFlight
      else if s.quiescent = true then .next (s.construct c n slot)
      else .refused .disableInFlight :=
  (if_neg (Nat.not_lt.2 hc8)).trans (if_neg (by omega))

theorem exec_transmit_of_busy (f : Frame) (hx : s.txs ≠ .idle) :
    exec (.transmit f) s = .refused .overlapTransmit :=
  if_pos (State.busy_eq_true hx)

theorem exec_transmit_of_not_enabled (f : Frame) (hx : s.txs = .idle) (hen : s.en = false) :
    exec (.transmit f) s = .refused .notEnabled :=
  (if_neg (by simp [State.busy_eq_false hx])).trans (if_pos hen)

/-! ## The operations that need no call of the program answer a next state (R210) -/

theorem exec_psmOperation_completes (st : PsmState) (s : State) :
    ∃ t, exec (psmOperation st) s = .next t := by
  obtain ⟨t, ht, -⟩ := exec_psmOperation_withPsm st (s := s) (r := s) rfl
  exact ⟨t, ht⟩

/-- Where PUSH is enabled the buffer holds a word at IDX (R78), so it never faults. -/
theorem StoreInvariant.exec_push_completes (hs : StoreInvariant s) : ∃ t, exec .push s = .next t := by
  by_cases henabled : s.feederEnabled = true
  · obtain ⟨hx, hidx, -⟩ := State.feederEnabled_iff.1 henabled
    obtain ⟨-, hwords⟩ := hs.feedComplete hx
    obtain ⟨v, hv⟩ := Option.isSome_iff_exists.1 (hwords s.idx hidx)
    exact ⟨_, exec_push_of_feederEnabled henabled hv⟩
  · exact ⟨s, exec_push_of_not_feederEnabled henabled⟩

theorem exec_settle_completes (s : State) : ∃ t, exec .settle s = .next t := by
  by_cases henabled : s.settleEnabled = true
  · exact ⟨_, exec_settle_of_settleEnabled henabled⟩
  · exact ⟨s, exec_settle_of_not_settleEnabled henabled⟩

/-- A step answers a next state where the operation its agent fetched does. -/
theorem step_completes_of_fetch_run {i : Instr} {u : State}
    (hf : s.takeTurn.fetch s.nextTurn.agent = .run i u) (h : ∃ v, exec i u = .next v) :
    ∃ t, step s = .next t := by
  obtain ⟨v, hv⟩ := h
  exact ⟨v.deliverDrain, (step_of_fetch hf).trans (congrArg (onNext State.deliverDrain) hv)⟩

end

/-! ## The obligations -/

/-- Settles O57, by what the moving agent fetches: a program without calls leaves a hold, the PSM's operation, PUSH and
SETTLE, and none of them stops. -/
theorem nothingStopsWithoutCalls : Obligations.NothingStopsWithoutCalls := by
  intro s hs hprog
  have hnil : ∀ i rest, s.takeTurn.prog ≠ i :: rest := by simp [hprog]
  rcases s.takeTurn.fetch_cases s.nextTurn.agent with
    hhold | ⟨-, hpsm⟩ | ⟨-, hpush⟩ | ⟨-, -, hsettle⟩ | ⟨i, rest, hcall, -⟩ | ⟨i, rest, hcall, -⟩ |
      ⟨i, rest, hcall, -⟩
  · exact ⟨_, step_of_fetch hhold⟩
  · exact step_completes_of_fetch_run hpsm (exec_psmOperation_completes _ _)
  · exact step_completes_of_fetch_run hpush hs.takeTurn.stores.exec_push_completes
  · exact step_completes_of_fetch_run hsettle (exec_settle_completes _)
  · exact absurd hcall (hnil i rest)
  · exact absurd hcall (hnil i rest)
  · exact absurd hcall (hnil i rest)

/-- Settles O36: the guards of CONSTRUCT after the one on the lanes, in their order. -/
theorem constructRefusals : Obligations.ConstructRefusals := by
  intro c n slot s hc8
  refine ⟨exec_construct_of_degenerate slot hc8, fun hc hn hx => ?_, fun hc hn hx hq => ?_⟩
  · rw [exec_construct_of_legal slot hc hc8 hn, if_pos (State.busy_eq_true hx)]
  · simp [exec_construct_of_legal slot hc hc8 hn, State.busy_eq_false hx, hq]

/-- Settles O39: the first two guards of TRANSMIT. -/
theorem transmitRefusedBusyOrDisabled : Obligations.TransmitRefusedBusyOrDisabled :=
  fun f _ => ⟨exec_transmit_of_busy f, exec_transmit_of_not_enabled f⟩

end Sys2Proof.Machine
end
